-- ==== Sys2Proof/Word.lean ====
section
/-! DEFINITION. The machine's two widths (00_scope.md R4, R5): `u8` and `u16`. -/

namespace Sys2Proof

/-- An 8-bit value: a register, a flag byte, a byte of memory (00_scope.md R5, `u8`). -/
abbrev Byte := BitVec 8

/-- A 16-bit value: an address or the program counter (00_scope.md R5, `u16`). -/
abbrev Addr := BitVec 16

end Sys2Proof
end

