-- ==== Sys2Proof/Config.lean ====
section
/-! DEFINITION. What an implementation fixes and the spec leaves open (00_scope.md R4). -/

namespace Sys2Proof

/-- `JMP_IND_PAGE_WRAP`, the OPEN boolean parameter of 00_scope.md R4 and 46_jump_branch.md R151 (92_eei_decisions.md D1):
whether an indirect JMP through a pointer whose low byte is 0xFF takes its high byte from the start of the same page.
It has no body, so that what is proved holds for both values. DESIGN CHOICE (how the openness is held), safe: log entry 1. -/
opaque Config.jmpIndPageWrap : Bool

end Sys2Proof
end

