-- ==== Sys2Proof/Syntax.lean ====
section
/-! DEFINITION. The instruction set as syntax: the 56 mnemonics, the 13 addressing modes, and one constructor of
`Instr` for each of the 151 rows of spec/opcode_table.json (30_encoding.md R50, R51, R55, R59). -/

namespace Sys2Proof

/-- The 56 mnemonics (30_encoding.md R59). -/
inductive Mnemonic where
  -- 41_load_store.md
  | lda | ldx | ldy | sta | stx | sty
  -- 42_transfer_stack.md
  | tax | tay | tsx | txa | tya | txs | pha | php | pla | plp
  -- 43_logical_bit.md
  | and | ora | eor | bit
  -- 44_arithmetic_compare.md
  | adc | sbc | cmp | cpx | cpy
  -- 45_incdec_shift.md
  | inc | dec | inx | iny | dex | dey | asl | lsr | rol | ror
  -- 46_jump_branch.md
  | jmp | jsr | rts | rti | bcc | bcs | bne | beq | bpl | bmi | bvc | bvs
  -- 47_flag_brk_nop.md
  | clc | sec | cld | sed | cli | sei | clv | brk | nop
  deriving DecidableEq, Repr

/-- The 13 addressing modes, by the mode ids of 30_encoding.md R51. -/
inductive Mode where
  | imp | acc | imm | zp | zpx | zpy | abs | abx | aby | ind | izx | izy | rel
  deriving DecidableEq, Repr

/-- The eight modes that have an effective address in memory, with their operand
(40_step_addressing_flags.md R77 to R82, R84, R85). A two-byte operand is held assembled (30_encoding.md R52). -/
inductive MemOperand where
  | zp (zp : Byte) | zpx (zp : Byte) | zpy (zp : Byte)
  | abs (addr : Addr) | abx (base : Addr) | aby (base : Addr)
  | izx (zp : Byte) | izy (zp : Byte)
  deriving DecidableEq, Repr

/-- An instruction's operand in its addressing mode (40_step_addressing_flags.md R74 to R86). -/
inductive Operand where
  | implied
  | accumulator
  | immediate (imm : Byte)
  | mem (m : MemOperand)
  | indirect (ptr : Addr)
  | relative (rel : Byte)
  deriving DecidableEq, Repr

/-- One constructor per row of spec/opcode_table.json. The operand is what the operand bytes stand for. -/
inductive Instr where
  -- 41_load_store.md
  | ldaImm (imm : Byte)
  | ldaZp (zp : Byte)
  | ldaZpx (zp : Byte)
  | ldaAbs (addr : Addr)
  | ldaAbx (base : Addr)
  | ldaAby (base : Addr)
  | ldaIzx (zp : Byte)
  | ldaIzy (zp : Byte)
  | ldxImm (imm : Byte)
  | ldxZp (zp : Byte)
  | ldxZpy (zp : Byte)
  | ldxAbs (addr : Addr)
  | ldxAby (base : Addr)
  | ldyImm (imm : Byte)
  | ldyZp (zp : Byte)
  | ldyZpx (zp : Byte)
  | ldyAbs (addr : Addr)
  | ldyAbx (base : Addr)
  | staZp (zp : Byte)
  | staZpx (zp : Byte)
  | staAbs (addr : Addr)
  | staAbx (base : Addr)
  | staAby (base : Addr)
  | staIzx (zp : Byte)
  | staIzy (zp : Byte)
  | stxZp (zp : Byte)
  | stxZpy (zp : Byte)
  | stxAbs (addr : Addr)
  | styZp (zp : Byte)
  | styZpx (zp : Byte)
  | styAbs (addr : Addr)
  -- 42_transfer_stack.md
  | tax
  | tay
  | tsx
  | txa
  | tya
  | txs
  | pha
  | php
  | pla
  | plp
  -- 43_logical_bit.md
  | andImm (imm : Byte)
  | andZp (zp : Byte)
  | andZpx (zp : Byte)
  | andAbs (addr : Addr)
  | andAbx (base : Addr)
  | andAby (base : Addr)
  | andIzx (zp : Byte)
  | andIzy (zp : Byte)
  | oraImm (imm : Byte)
  | oraZp (zp : Byte)
  | oraZpx (zp : Byte)
  | oraAbs (addr : Addr)
  | oraAbx (base : Addr)
  | oraAby (base : Addr)
  | oraIzx (zp : Byte)
  | oraIzy (zp : Byte)
  | eorImm (imm : Byte)
  | eorZp (zp : Byte)
  | eorZpx (zp : Byte)
  | eorAbs (addr : Addr)
  | eorAbx (base : Addr)
  | eorAby (base : Addr)
  | eorIzx (zp : Byte)
  | eorIzy (zp : Byte)
  | bitZp (zp : Byte)
  | bitAbs (addr : Addr)
  -- 44_arithmetic_compare.md
  | adcImm (imm : Byte)
  | adcZp (zp : Byte)
  | adcZpx (zp : Byte)
  | adcAbs (addr : Addr)
  | adcAbx (base : Addr)
  | adcAby (base : Addr)
  | adcIzx (zp : Byte)
  | adcIzy (zp : Byte)
  | sbcImm (imm : Byte)
  | sbcZp (zp : Byte)
  | sbcZpx (zp : Byte)
  | sbcAbs (addr : Addr)
  | sbcAbx (base : Addr)
  | sbcAby (base : Addr)
  | sbcIzx (zp : Byte)
  | sbcIzy (zp : Byte)
  | cmpImm (imm : Byte)
  | cmpZp (zp : Byte)
  | cmpZpx (zp : Byte)
  | cmpAbs (addr : Addr)
  | cmpAbx (base : Addr)
  | cmpAby (base : Addr)
  | cmpIzx (zp : Byte)
  | cmpIzy (zp : Byte)
  | cpxImm (imm : Byte)
  | cpxZp (zp : Byte)
  | cpxAbs (addr : Addr)
  | cpyImm (imm : Byte)
  | cpyZp (zp : Byte)
  | cpyAbs (addr : Addr)
  -- 45_incdec_shift.md
  | incZp (zp : Byte)
  | incZpx (zp : Byte)
  | incAbs (addr : Addr)
  | incAbx (base : Addr)
  | decZp (zp : Byte)
  | decZpx (zp : Byte)
  | decAbs (addr : Addr)
  | decAbx (base : Addr)
  | inx
  | iny
  | dex
  | dey
  | aslAcc
  | aslZp (zp : Byte)
  | aslZpx (zp : Byte)
  | aslAbs (addr : Addr)
  | aslAbx (base : Addr)
  | lsrAcc
  | lsrZp (zp : Byte)
  | lsrZpx (zp : Byte)
  | lsrAbs (addr : Addr)
  | lsrAbx (base : Addr)
  | rolAcc
  | rolZp (zp : Byte)
  | rolZpx (zp : Byte)
  | rolAbs (addr : Addr)
  | rolAbx (base : Addr)
  | rorAcc
  | rorZp (zp : Byte)
  | rorZpx (zp : Byte)
  | rorAbs (addr : Addr)
  | rorAbx (base : Addr)
  -- 46_jump_branch.md
  | jmpAbs (addr : Addr)
  | jmpInd (ptr : Addr)
  | jsrAbs (addr : Addr)
  | rts
  | rti
  | bcc (rel : Byte)
  | bcs (rel : Byte)
  | bne (rel : Byte)
  | beq (rel : Byte)
  | bpl (rel : Byte)
  | bmi (rel : Byte)
  | bvc (rel : Byte)
  | bvs (rel : Byte)
  -- 47_flag_brk_nop.md
  | clc
  | sec
  | cld
  | sed
  | cli
  | sei
  | clv
  | brk
  | nop
  deriving DecidableEq, Repr

/-- The mnemonic of an instruction (30_encoding.md R59). -/
def Instr.mnemonic : Instr → Mnemonic
  -- 41_load_store.md
  | .ldaImm _ => .lda
  | .ldaZp _ => .lda
  | .ldaZpx _ => .lda
  | .ldaAbs _ => .lda
  | .ldaAbx _ => .lda
  | .ldaAby _ => .lda
  | .ldaIzx _ => .lda
  | .ldaIzy _ => .lda
  | .ldxImm _ => .ldx
  | .ldxZp _ => .ldx
  | .ldxZpy _ => .ldx
  | .ldxAbs _ => .ldx
  | .ldxAby _ => .ldx
  | .ldyImm _ => .ldy
  | .ldyZp _ => .ldy
  | .ldyZpx _ => .ldy
  | .ldyAbs _ => .ldy
  | .ldyAbx _ => .ldy
  | .staZp _ => .sta
  | .staZpx _ => .sta
  | .staAbs _ => .sta
  | .staAbx _ => .sta
  | .staAby _ => .sta
  | .staIzx _ => .sta
  | .staIzy _ => .sta
  | .stxZp _ => .stx
  | .stxZpy _ => .stx
  | .stxAbs _ => .stx
  | .styZp _ => .sty
  | .styZpx _ => .sty
  | .styAbs _ => .sty
  -- 42_transfer_stack.md
  | .tax => .tax
  | .tay => .tay
  | .tsx => .tsx
  | .txa => .txa
  | .tya => .tya
  | .txs => .txs
  | .pha => .pha
  | .php => .php
  | .pla => .pla
  | .plp => .plp
  -- 43_logical_bit.md
  | .andImm _ => .and
  | .andZp _ => .and
  | .andZpx _ => .and
  | .andAbs _ => .and
  | .andAbx _ => .and
  | .andAby _ => .and
  | .andIzx _ => .and
  | .andIzy _ => .and
  | .oraImm _ => .ora
  | .oraZp _ => .ora
  | .oraZpx _ => .ora
  | .oraAbs _ => .ora
  | .oraAbx _ => .ora
  | .oraAby _ => .ora
  | .oraIzx _ => .ora
  | .oraIzy _ => .ora
  | .eorImm _ => .eor
  | .eorZp _ => .eor
  | .eorZpx _ => .eor
  | .eorAbs _ => .eor
  | .eorAbx _ => .eor
  | .eorAby _ => .eor
  | .eorIzx _ => .eor
  | .eorIzy _ => .eor
  | .bitZp _ => .bit
  | .bitAbs _ => .bit
  -- 44_arithmetic_compare.md
  | .adcImm _ => .adc
  | .adcZp _ => .adc
  | .adcZpx _ => .adc
  | .adcAbs _ => .adc
  | .adcAbx _ => .adc
  | .adcAby _ => .adc
  | .adcIzx _ => .adc
  | .adcIzy _ => .adc
  | .sbcImm _ => .sbc
  | .sbcZp _ => .sbc
  | .sbcZpx _ => .sbc
  | .sbcAbs _ => .sbc
  | .sbcAbx _ => .sbc
  | .sbcAby _ => .sbc
  | .sbcIzx _ => .sbc
  | .sbcIzy _ => .sbc
  | .cmpImm _ => .cmp
  | .cmpZp _ => .cmp
  | .cmpZpx _ => .cmp
  | .cmpAbs _ => .cmp
  | .cmpAbx _ => .cmp
  | .cmpAby _ => .cmp
  | .cmpIzx _ => .cmp
  | .cmpIzy _ => .cmp
  | .cpxImm _ => .cpx
  | .cpxZp _ => .cpx
  | .cpxAbs _ => .cpx
  | .cpyImm _ => .cpy
  | .cpyZp _ => .cpy
  | .cpyAbs _ => .cpy
  -- 45_incdec_shift.md
  | .incZp _ => .inc
  | .incZpx _ => .inc
  | .incAbs _ => .inc
  | .incAbx _ => .inc
  | .decZp _ => .dec
  | .decZpx _ => .dec
  | .decAbs _ => .dec
  | .decAbx _ => .dec
  | .inx => .inx
  | .iny => .iny
  | .dex => .dex
  | .dey => .dey
  | .aslAcc => .asl
  | .aslZp _ => .asl
  | .aslZpx _ => .asl
  | .aslAbs _ => .asl
  | .aslAbx _ => .asl
  | .lsrAcc => .lsr
  | .lsrZp _ => .lsr
  | .lsrZpx _ => .lsr
  | .lsrAbs _ => .lsr
  | .lsrAbx _ => .lsr
  | .rolAcc => .rol
  | .rolZp _ => .rol
  | .rolZpx _ => .rol
  | .rolAbs _ => .rol
  | .rolAbx _ => .rol
  | .rorAcc => .ror
  | .rorZp _ => .ror
  | .rorZpx _ => .ror
  | .rorAbs _ => .ror
  | .rorAbx _ => .ror
  -- 46_jump_branch.md
  | .jmpAbs _ => .jmp
  | .jmpInd _ => .jmp
  | .jsrAbs _ => .jsr
  | .rts => .rts
  | .rti => .rti
  | .bcc _ => .bcc
  | .bcs _ => .bcs
  | .bne _ => .bne
  | .beq _ => .beq
  | .bpl _ => .bpl
  | .bmi _ => .bmi
  | .bvc _ => .bvc
  | .bvs _ => .bvs
  -- 47_flag_brk_nop.md
  | .clc => .clc
  | .sec => .sec
  | .cld => .cld
  | .sed => .sed
  | .cli => .cli
  | .sei => .sei
  | .clv => .clv
  | .brk => .brk
  | .nop => .nop

/-- The operand of an instruction in its addressing mode (30_encoding.md R51, R59). -/
def Instr.operand : Instr → Operand
  -- 41_load_store.md
  | .ldaImm imm => .immediate imm
  | .ldaZp zp => .mem (.zp zp)
  | .ldaZpx zp => .mem (.zpx zp)
  | .ldaAbs addr => .mem (.abs addr)
  | .ldaAbx base => .mem (.abx base)
  | .ldaAby base => .mem (.aby base)
  | .ldaIzx zp => .mem (.izx zp)
  | .ldaIzy zp => .mem (.izy zp)
  | .ldxImm imm => .immediate imm
  | .ldxZp zp => .mem (.zp zp)
  | .ldxZpy zp => .mem (.zpy zp)
  | .ldxAbs addr => .mem (.abs addr)
  | .ldxAby base => .mem (.aby base)
  | .ldyImm imm => .immediate imm
  | .ldyZp zp => .mem (.zp zp)
  | .ldyZpx zp => .mem (.zpx zp)
  | .ldyAbs addr => .mem (.abs addr)
  | .ldyAbx base => .mem (.abx base)
  | .staZp zp => .mem (.zp zp)
  | .staZpx zp => .mem (.zpx zp)
  | .staAbs addr => .mem (.abs addr)
  | .staAbx base => .mem (.abx base)
  | .staAby base => .mem (.aby base)
  | .staIzx zp => .mem (.izx zp)
  | .staIzy zp => .mem (.izy zp)
  | .stxZp zp => .mem (.zp zp)
  | .stxZpy zp => .mem (.zpy zp)
  | .stxAbs addr => .mem (.abs addr)
  | .styZp zp => .mem (.zp zp)
  | .styZpx zp => .mem (.zpx zp)
  | .styAbs addr => .mem (.abs addr)
  -- 42_transfer_stack.md
  | .tax => .implied
  | .tay => .implied
  | .tsx => .implied
  | .txa => .implied
  | .tya => .implied
  | .txs => .implied
  | .pha => .implied
  | .php => .implied
  | .pla => .implied
  | .plp => .implied
  -- 43_logical_bit.md
  | .andImm imm => .immediate imm
  | .andZp zp => .mem (.zp zp)
  | .andZpx zp => .mem (.zpx zp)
  | .andAbs addr => .mem (.abs addr)
  | .andAbx base => .mem (.abx base)
  | .andAby base => .mem (.aby base)
  | .andIzx zp => .mem (.izx zp)
  | .andIzy zp => .mem (.izy zp)
  | .oraImm imm => .immediate imm
  | .oraZp zp => .mem (.zp zp)
  | .oraZpx zp => .mem (.zpx zp)
  | .oraAbs addr => .mem (.abs addr)
  | .oraAbx base => .mem (.abx base)
  | .oraAby base => .mem (.aby base)
  | .oraIzx zp => .mem (.izx zp)
  | .oraIzy zp => .mem (.izy zp)
  | .eorImm imm => .immediate imm
  | .eorZp zp => .mem (.zp zp)
  | .eorZpx zp => .mem (.zpx zp)
  | .eorAbs addr => .mem (.abs addr)
  | .eorAbx base => .mem (.abx base)
  | .eorAby base => .mem (.aby base)
  | .eorIzx zp => .mem (.izx zp)
  | .eorIzy zp => .mem (.izy zp)
  | .bitZp zp => .mem (.zp zp)
  | .bitAbs addr => .mem (.abs addr)
  -- 44_arithmetic_compare.md
  | .adcImm imm => .immediate imm
  | .adcZp zp => .mem (.zp zp)
  | .adcZpx zp => .mem (.zpx zp)
  | .adcAbs addr => .mem (.abs addr)
  | .adcAbx base => .mem (.abx base)
  | .adcAby base => .mem (.aby base)
  | .adcIzx zp => .mem (.izx zp)
  | .adcIzy zp => .mem (.izy zp)
  | .sbcImm imm => .immediate imm
  | .sbcZp zp => .mem (.zp zp)
  | .sbcZpx zp => .mem (.zpx zp)
  | .sbcAbs addr => .mem (.abs addr)
  | .sbcAbx base => .mem (.abx base)
  | .sbcAby base => .mem (.aby base)
  | .sbcIzx zp => .mem (.izx zp)
  | .sbcIzy zp => .mem (.izy zp)
  | .cmpImm imm => .immediate imm
  | .cmpZp zp => .mem (.zp zp)
  | .cmpZpx zp => .mem (.zpx zp)
  | .cmpAbs addr => .mem (.abs addr)
  | .cmpAbx base => .mem (.abx base)
  | .cmpAby base => .mem (.aby base)
  | .cmpIzx zp => .mem (.izx zp)
  | .cmpIzy zp => .mem (.izy zp)
  | .cpxImm imm => .immediate imm
  | .cpxZp zp => .mem (.zp zp)
  | .cpxAbs addr => .mem (.abs addr)
  | .cpyImm imm => .immediate imm
  | .cpyZp zp => .mem (.zp zp)
  | .cpyAbs addr => .mem (.abs addr)
  -- 45_incdec_shift.md
  | .incZp zp => .mem (.zp zp)
  | .incZpx zp => .mem (.zpx zp)
  | .incAbs addr => .mem (.abs addr)
  | .incAbx base => .mem (.abx base)
  | .decZp zp => .mem (.zp zp)
  | .decZpx zp => .mem (.zpx zp)
  | .decAbs addr => .mem (.abs addr)
  | .decAbx base => .mem (.abx base)
  | .inx => .implied
  | .iny => .implied
  | .dex => .implied
  | .dey => .implied
  | .aslAcc => .accumulator
  | .aslZp zp => .mem (.zp zp)
  | .aslZpx zp => .mem (.zpx zp)
  | .aslAbs addr => .mem (.abs addr)
  | .aslAbx base => .mem (.abx base)
  | .lsrAcc => .accumulator
  | .lsrZp zp => .mem (.zp zp)
  | .lsrZpx zp => .mem (.zpx zp)
  | .lsrAbs addr => .mem (.abs addr)
  | .lsrAbx base => .mem (.abx base)
  | .rolAcc => .accumulator
  | .rolZp zp => .mem (.zp zp)
  | .rolZpx zp => .mem (.zpx zp)
  | .rolAbs addr => .mem (.abs addr)
  | .rolAbx base => .mem (.abx base)
  | .rorAcc => .accumulator
  | .rorZp zp => .mem (.zp zp)
  | .rorZpx zp => .mem (.zpx zp)
  | .rorAbs addr => .mem (.abs addr)
  | .rorAbx base => .mem (.abx base)
  -- 46_jump_branch.md
  | .jmpAbs addr => .mem (.abs addr)
  | .jmpInd ptr => .indirect ptr
  | .jsrAbs addr => .mem (.abs addr)
  | .rts => .implied
  | .rti => .implied
  | .bcc rel => .relative rel
  | .bcs rel => .relative rel
  | .bne rel => .relative rel
  | .beq rel => .relative rel
  | .bpl rel => .relative rel
  | .bmi rel => .relative rel
  | .bvc rel => .relative rel
  | .bvs rel => .relative rel
  -- 47_flag_brk_nop.md
  | .clc => .implied
  | .sec => .implied
  | .cld => .implied
  | .sed => .implied
  | .cli => .implied
  | .sei => .implied
  | .clv => .implied
  | .brk => .implied
  | .nop => .implied

/-- The addressing mode of a memory operand. -/
def MemOperand.mode : MemOperand → Mode
  | .zp _ => .zp | .zpx _ => .zpx | .zpy _ => .zpy
  | .abs _ => .abs | .abx _ => .abx | .aby _ => .aby
  | .izx _ => .izx | .izy _ => .izy

/-- The addressing mode of an operand. -/
def Operand.mode : Operand → Mode
  | .implied => .imp
  | .accumulator => .acc
  | .immediate _ => .imm
  | .mem m => m.mode
  | .indirect _ => .ind
  | .relative _ => .rel

/-- The addressing mode of an instruction. -/
def Instr.mode (i : Instr) : Mode := i.operand.mode

end Sys2Proof
end

