-- ==== Sys2Proof/Decode.lean ====
section
/-! DEFINITION. The decoder (30_encoding.md R50 to R58), total on any list of bytes and rejecting by name, and after it
the encoder, written from the other table of the encoding (R59). Also the byte-order helpers both use (R52). -/

namespace Sys2Proof

/-! ### Byte order -/

/-- `(hi << 8) | lo`, the 16-bit value of two bytes (30_encoding.md R52; 20_memory.md R34). -/
def makeWord (hi lo : Byte) : Addr := hi ++ lo

/-- Bits 7:0 of a 16-bit value. -/
def loByte (w : Addr) : Byte := w.extractLsb' 0 8

/-- Bits 15:8 of a 16-bit value. -/
def hiByte (w : Addr) : Byte := w.extractLsb' 8 8

/-! ### Lengths -/

/-- How many operand bytes a mode has (30_encoding.md R51). -/
def Mode.operandCount : Mode → Nat
  | .imp | .acc => 0
  | .imm | .zp | .zpx | .zpy | .izx | .izy | .rel => 1
  | .abs | .abx | .aby | .ind => 2

/-- The decode length in bytes: 1 plus the operand bytes of the mode (30_encoding.md R54; BRK is 1, R58). -/
def Instr.length (i : Instr) : Nat := 1 + i.mode.operandCount

/-! ### The dispatch table -/

/-- What an assigned opcode byte selects: an instruction, or one awaiting its one or two operand bytes
(30_encoding.md R51, R54). -/
inductive Form where
  | one (i : Instr)
  | two (make : Byte → Instr)
  | three (make : Addr → Instr)

/-- An entry of the matrix: `none` is an unassigned byte. -/
abbrev Entry := Option Form

/-- Row 0x of the opcode matrix (30_encoding.md R55). -/
def opcodeRow0 : List Entry :=
  [some (.one .brk), some (.two .oraIzx), none, none,
   none, some (.two .oraZp), some (.two .aslZp), none,
   some (.one .php), some (.two .oraImm), some (.one .aslAcc), none,
   none, some (.three .oraAbs), some (.three .aslAbs), none]

/-- Row 1x of the opcode matrix (30_encoding.md R55). -/
def opcodeRow1 : List Entry :=
  [some (.two .bpl), some (.two .oraIzy), none, none,
   none, some (.two .oraZpx), some (.two .aslZpx), none,
   some (.one .clc), some (.three .oraAby), none, none,
   none, some (.three .oraAbx), some (.three .aslAbx), none]

/-- Row 2x of the opcode matrix (30_encoding.md R55). -/
def opcodeRow2 : List Entry :=
  [some (.three .jsrAbs), some (.two .andIzx), none, none,
   some (.two .bitZp), some (.two .andZp), some (.two .rolZp), none,
   some (.one .plp), some (.two .andImm), some (.one .rolAcc), none,
   some (.three .bitAbs), some (.three .andAbs), some (.three .rolAbs), none]

/-- Row 3x of the opcode matrix (30_encoding.md R55). -/
def opcodeRow3 : List Entry :=
  [some (.two .bmi), some (.two .andIzy), none, none,
   none, some (.two .andZpx), some (.two .rolZpx), none,
   some (.one .sec), some (.three .andAby), none, none,
   none, some (.three .andAbx), some (.three .rolAbx), none]

/-- Row 4x of the opcode matrix (30_encoding.md R55). -/
def opcodeRow4 : List Entry :=
  [some (.one .rti), some (.two .eorIzx), none, none,
   none, some (.two .eorZp), some (.two .lsrZp), none,
   some (.one .pha), some (.two .eorImm), some (.one .lsrAcc), none,
   some (.three .jmpAbs), some (.three .eorAbs), some (.three .lsrAbs), none]

/-- Row 5x of the opcode matrix (30_encoding.md R55). -/
def opcodeRow5 : List Entry :=
  [some (.two .bvc), some (.two .eorIzy), none, none,
   none, some (.two .eorZpx), some (.two .lsrZpx), none,
   some (.one .cli), some (.three .eorAby), none, none,
   none, some (.three .eorAbx), some (.three .lsrAbx), none]

/-- Row 6x of the opcode matrix (30_encoding.md R55). -/
def opcodeRow6 : List Entry :=
  [some (.one .rts), some (.two .adcIzx), none, none,
   none, some (.two .adcZp), some (.two .rorZp), none,
   some (.one .pla), some (.two .adcImm), some (.one .rorAcc), none,
   some (.three .jmpInd), some (.three .adcAbs), some (.three .rorAbs), none]

/-- Row 7x of the opcode matrix (30_encoding.md R55). -/
def opcodeRow7 : List Entry :=
  [some (.two .bvs), some (.two .adcIzy), none, none,
   none, some (.two .adcZpx), some (.two .rorZpx), none,
   some (.one .sei), some (.three .adcAby), none, none,
   none, some (.three .adcAbx), some (.three .rorAbx), none]

/-- Row 8x of the opcode matrix (30_encoding.md R55). -/
def opcodeRow8 : List Entry :=
  [none, some (.two .staIzx), none, none,
   some (.two .styZp), some (.two .staZp), some (.two .stxZp), none,
   some (.one .dey), none, some (.one .txa), none,
   some (.three .styAbs), some (.three .staAbs), some (.three .stxAbs), none]

/-- Row 9x of the opcode matrix (30_encoding.md R55). -/
def opcodeRow9 : List Entry :=
  [some (.two .bcc), some (.two .staIzy), none, none,
   some (.two .styZpx), some (.two .staZpx), some (.two .stxZpy), none,
   some (.one .tya), some (.three .staAby), some (.one .txs), none,
   none, some (.three .staAbx), none, none]

/-- Row Ax of the opcode matrix (30_encoding.md R55). -/
def opcodeRowA : List Entry :=
  [some (.two .ldyImm), some (.two .ldaIzx), some (.two .ldxImm), none,
   some (.two .ldyZp), some (.two .ldaZp), some (.two .ldxZp), none,
   some (.one .tay), some (.two .ldaImm), some (.one .tax), none,
   some (.three .ldyAbs), some (.three .ldaAbs), some (.three .ldxAbs), none]

/-- Row Bx of the opcode matrix (30_encoding.md R55). -/
def opcodeRowB : List Entry :=
  [some (.two .bcs), some (.two .ldaIzy), none, none,
   some (.two .ldyZpx), some (.two .ldaZpx), some (.two .ldxZpy), none,
   some (.one .clv), some (.three .ldaAby), some (.one .tsx), none,
   some (.three .ldyAbx), some (.three .ldaAbx), some (.three .ldxAby), none]

/-- Row Cx of the opcode matrix (30_encoding.md R55). -/
def opcodeRowC : List Entry :=
  [some (.two .cpyImm), some (.two .cmpIzx), none, none,
   some (.two .cpyZp), some (.two .cmpZp), some (.two .decZp), none,
   some (.one .iny), some (.two .cmpImm), some (.one .dex), none,
   some (.three .cpyAbs), some (.three .cmpAbs), some (.three .decAbs), none]

/-- Row Dx of the opcode matrix (30_encoding.md R55). -/
def opcodeRowD : List Entry :=
  [some (.two .bne), some (.two .cmpIzy), none, none,
   none, some (.two .cmpZpx), some (.two .decZpx), none,
   some (.one .cld), some (.three .cmpAby), none, none,
   none, some (.three .cmpAbx), some (.three .decAbx), none]

/-- Row Ex of the opcode matrix (30_encoding.md R55). -/
def opcodeRowE : List Entry :=
  [some (.two .cpxImm), some (.two .sbcIzx), none, none,
   some (.two .cpxZp), some (.two .sbcZp), some (.two .incZp), none,
   some (.one .inx), some (.two .sbcImm), some (.one .nop), none,
   some (.three .cpxAbs), some (.three .sbcAbs), some (.three .incAbs), none]

/-- Row Fx of the opcode matrix (30_encoding.md R55). -/
def opcodeRowF : List Entry :=
  [some (.two .beq), some (.two .sbcIzy), none, none,
   none, some (.two .sbcZpx), some (.two .incZpx), none,
   some (.one .sed), some (.three .sbcAby), none, none,
   none, some (.three .sbcAbx), some (.three .incAbx), none]

/-- The opcode matrix, high nibble first (30_encoding.md R55). -/
def opcodeMatrix : List (List Entry) :=
  [opcodeRow0, opcodeRow1, opcodeRow2, opcodeRow3, opcodeRow4, opcodeRow5, opcodeRow6, opcodeRow7,
   opcodeRow8, opcodeRow9, opcodeRowA, opcodeRowB, opcodeRowC, opcodeRowD, opcodeRowE, opcodeRowF]

/-- The 256-entry dispatch table: row = high nibble, column = low nibble (30_encoding.md R55, R56). -/
def dispatch (op : Byte) : Entry :=
  (opcodeMatrix.getD (op.toNat / 16) []).getD (op.toNat % 16) none

/-! ### Decoding -/

/-- Why a byte list is no instruction. -/
inductive Reject where
  /-- There is no first byte. -/
  | empty
  /-- The first byte is one of the 105 unassigned values (30_encoding.md R56). -/
  | unassignedOpcode (op : Byte)
  /-- The operand bytes that the opcode's mode asks for are missing. -/
  | truncated (op : Byte)
  deriving DecidableEq, Repr

/-- Decode one instruction and give back the bytes after it. Byte 0 alone selects mnemonic and mode; a two-byte operand
is little-endian (30_encoding.md R50, R52, R54). -/
def decode : List Byte → Except Reject (Instr × List Byte)
  | [] => .error .empty
  | op :: rest =>
    match dispatch op with
    | none => .error (.unassignedOpcode op)
    | some (.one i) => .ok (i, rest)
    | some (.two make) =>
      match rest with
      | b :: rest => .ok (make b, rest)
      | [] => .error (.truncated op)
    | some (.three make) =>
      match rest with
      | lo :: hi :: rest => .ok (make (makeWord hi lo), rest)
      | _ => .error (.truncated op)

/-! ### Encoding -/

/-- The opcode bytes of each mnemonic by addressing mode (30_encoding.md R59). -/
def opcodesOf : Mnemonic → List (Mode × Byte)
  | .lda => [(.imm, 0xA9), (.zp, 0xA5), (.zpx, 0xB5), (.abs, 0xAD), (.abx, 0xBD), (.aby, 0xB9), (.izx, 0xA1), (.izy, 0xB1)]
  | .ldx => [(.imm, 0xA2), (.zp, 0xA6), (.zpy, 0xB6), (.abs, 0xAE), (.aby, 0xBE)]
  | .ldy => [(.imm, 0xA0), (.zp, 0xA4), (.zpx, 0xB4), (.abs, 0xAC), (.abx, 0xBC)]
  | .sta => [(.zp, 0x85), (.zpx, 0x95), (.abs, 0x8D), (.abx, 0x9D), (.aby, 0x99), (.izx, 0x81), (.izy, 0x91)]
  | .stx => [(.zp, 0x86), (.zpy, 0x96), (.abs, 0x8E)]
  | .sty => [(.zp, 0x84), (.zpx, 0x94), (.abs, 0x8C)]
  | .tax => [(.imp, 0xAA)]
  | .tay => [(.imp, 0xA8)]
  | .tsx => [(.imp, 0xBA)]
  | .txa => [(.imp, 0x8A)]
  | .tya => [(.imp, 0x98)]
  | .txs => [(.imp, 0x9A)]
  | .pha => [(.imp, 0x48)]
  | .php => [(.imp, 0x08)]
  | .pla => [(.imp, 0x68)]
  | .plp => [(.imp, 0x28)]
  | .and => [(.imm, 0x29), (.zp, 0x25), (.zpx, 0x35), (.abs, 0x2D), (.abx, 0x3D), (.aby, 0x39), (.izx, 0x21), (.izy, 0x31)]
  | .ora => [(.imm, 0x09), (.zp, 0x05), (.zpx, 0x15), (.abs, 0x0D), (.abx, 0x1D), (.aby, 0x19), (.izx, 0x01), (.izy, 0x11)]
  | .eor => [(.imm, 0x49), (.zp, 0x45), (.zpx, 0x55), (.abs, 0x4D), (.abx, 0x5D), (.aby, 0x59), (.izx, 0x41), (.izy, 0x51)]
  | .bit => [(.zp, 0x24), (.abs, 0x2C)]
  | .adc => [(.imm, 0x69), (.zp, 0x65), (.zpx, 0x75), (.abs, 0x6D), (.abx, 0x7D), (.aby, 0x79), (.izx, 0x61), (.izy, 0x71)]
  | .sbc => [(.imm, 0xE9), (.zp, 0xE5), (.zpx, 0xF5), (.abs, 0xED), (.abx, 0xFD), (.aby, 0xF9), (.izx, 0xE1), (.izy, 0xF1)]
  | .cmp => [(.imm, 0xC9), (.zp, 0xC5), (.zpx, 0xD5), (.abs, 0xCD), (.abx, 0xDD), (.aby, 0xD9), (.izx, 0xC1), (.izy, 0xD1)]
  | .cpx => [(.imm, 0xE0), (.zp, 0xE4), (.abs, 0xEC)]
  | .cpy => [(.imm, 0xC0), (.zp, 0xC4), (.abs, 0xCC)]
  | .inc => [(.zp, 0xE6), (.zpx, 0xF6), (.abs, 0xEE), (.abx, 0xFE)]
  | .dec => [(.zp, 0xC6), (.zpx, 0xD6), (.abs, 0xCE), (.abx, 0xDE)]
  | .inx => [(.imp, 0xE8)]
  | .iny => [(.imp, 0xC8)]
  | .dex => [(.imp, 0xCA)]
  | .dey => [(.imp, 0x88)]
  | .asl => [(.acc, 0x0A), (.zp, 0x06), (.zpx, 0x16), (.abs, 0x0E), (.abx, 0x1E)]
  | .lsr => [(.acc, 0x4A), (.zp, 0x46), (.zpx, 0x56), (.abs, 0x4E), (.abx, 0x5E)]
  | .rol => [(.acc, 0x2A), (.zp, 0x26), (.zpx, 0x36), (.abs, 0x2E), (.abx, 0x3E)]
  | .ror => [(.acc, 0x6A), (.zp, 0x66), (.zpx, 0x76), (.abs, 0x6E), (.abx, 0x7E)]
  | .jmp => [(.abs, 0x4C), (.ind, 0x6C)]
  | .jsr => [(.abs, 0x20)]
  | .rts => [(.imp, 0x60)]
  | .rti => [(.imp, 0x40)]
  | .bcc => [(.rel, 0x90)]
  | .bcs => [(.rel, 0xB0)]
  | .bne => [(.rel, 0xD0)]
  | .beq => [(.rel, 0xF0)]
  | .bpl => [(.rel, 0x10)]
  | .bmi => [(.rel, 0x30)]
  | .bvc => [(.rel, 0x50)]
  | .bvs => [(.rel, 0x70)]
  | .clc => [(.imp, 0x18)]
  | .sec => [(.imp, 0x38)]
  | .cld => [(.imp, 0xD8)]
  | .sed => [(.imp, 0xF8)]
  | .cli => [(.imp, 0x58)]
  | .sei => [(.imp, 0x78)]
  | .clv => [(.imp, 0xB8)]
  | .brk => [(.imp, 0x00)]
  | .nop => [(.imp, 0xEA)]

/-- The operand bytes as they lie in memory, low byte first (30_encoding.md R51, R52). -/
def MemOperand.bytes : MemOperand → List Byte
  | .zp b | .zpx b | .zpy b | .izx b | .izy b => [b]
  | .abs w | .abx w | .aby w => [loByte w, hiByte w]

/-- The operand bytes of an operand (30_encoding.md R51). -/
def Operand.bytes : Operand → List Byte
  | .implied | .accumulator => []
  | .immediate b | .relative b => [b]
  | .mem m => m.bytes
  | .indirect w => [loByte w, hiByte w]

/-- The bytes of an instruction: its opcode (R59), then its operand bytes (R51). A pair outside R59 has no bytes. -/
def encode (i : Instr) : List Byte :=
  match (opcodesOf i.mnemonic).lookup i.mode with
  | some op => op :: i.operand.bytes
  | none => []

/-! ### Words of the opcode table -/

/-- The three bytes, first byte first, of an instruction word whose bits above `nbits` are zero. Bit 0 of the word is
bit 0 of the first byte (30_encoding.md R51, "24-bit view"). -/
def tableBytes (nbits w : Nat) : List Byte :=
  let v := w % 2 ^ nbits
  [BitVec.ofNat 8 v, BitVec.ofNat 8 (v / 256), BitVec.ofNat 8 (v / 65536)]

/-- The instruction the decoder reads from a word numbered as spec/opcode_table.json numbers it. -/
def decodeTableWord (nbits w : Nat) : Option Instr :=
  match decode (tableBytes nbits w) with
  | .ok (i, _) => some i
  | .error _ => none

end Sys2Proof
end

