-- ==== Sys2Proof/Machine/State.lean ====
section
/-! DEFINITION. The architectural state and its reset values (10_state.md R10 to R29), and the reasons a step can stop. -/

namespace Sys2Proof.Machine

/-- Memory as its non-zero bytes, addresses strictly rising (`Memory.wf`, Machine/Ops.lean). An unlisted address reads
`Memory.unlisted`. DESIGN CHOICE (the representation only), safe: log entry 10. -/
abbrev Memory := List Host.Cell

/-- "The whole architectural state is one aggregate" of exactly these fields (10_state.md R10). -/
structure State where
  /-- Program counter (R15). -/
  pc : Addr
  /-- Accumulator (R11). -/
  a : Byte
  /-- Index register X (R12). -/
  x : Byte
  /-- Index register Y (R12). -/
  y : Byte
  /-- Stack pointer; it denotes 0x0100 | SP (R13). -/
  sp : Byte
  /-- Status register, bits `NV-BDIZC` (R16). -/
  sr : Byte
  /-- The 65,536 bytes of memory (R27). -/
  mem : Memory
  /-- `instruction_count` (R28). A natural number, as 92_eei_decisions.md D12 allows.
  DESIGN CHOICE, unsafe from 2^64 steps on: log entry 2. -/
  ic : Nat
  deriving DecidableEq, Repr

/-- Why a step stops with a fault. -/
inductive Fault where
  /-- `UnknownOpcode(op, addr)`: raised by `step` when the byte fetched at `addr` is unassigned (60_exceptions.md R180).
  The state is unchanged (R181). Safe: the spec names this fault and gives the machine no other. -/
  | unknownOpcode (op : Byte) (addr : Addr)
  deriving DecidableEq, Repr

/-- Why a step is refused. -/
inductive Refusal where
  /-- Raised by an arm of `exec` whose instruction has no meaning yet. No arm of this model raises it. Safe. -/
  | notModelled (mnemonic : String)
  deriving DecidableEq, Repr

/-- What an instruction's meaning answers. -/
abbrev Result := Host.Outcome State Fault Refusal

/-- The state after construction (10_state.md R26; 70_reset_and_hazards.md R200): A = X = Y = 0, SR = 0, SP = 0xFF, PC = 0,
all memory zero, IC = 0. -/
def State.reset : State :=
  { pc := 0, a := 0, x := 0, y := 0, sp := 0xFF, sr := 0, mem := [], ic := 0 }

end Sys2Proof.Machine
end

