-- ==== Sys2Proof/Machine/Flags.lean ====
section
/-! DEFINITION. The flags of SR and every flag computation of the spec
(10_state.md R16 to R25; 40_step_addressing_flags.md R89 to R93), as functions of bytes. -/

namespace Sys2Proof.Machine

/-! ### The bits of SR -/

/-- The eight bits of SR (10_state.md R16). -/
inductive Flag where
  | n | v | u | b | d | i | z | c
  deriving DecidableEq, Repr

/-- The bit number of a flag in SR (10_state.md R16). -/
def Flag.bit : Flag → Nat
  | .n => 7 | .v => 6 | .u => 5 | .b => 4 | .d => 3 | .i => 2 | .z => 1 | .c => 0

/-- SR with only this flag set. -/
def Flag.mask (f : Flag) : Byte := 1#8 <<< f.bit

/-- Read one bit of a status byte. -/
def Flag.get (f : Flag) (sr : Byte) : Bool := sr.getLsbD f.bit

/-- "`C <- b` writes that one bit and leaves the other seven" (00_scope.md R6). -/
def Flag.put (f : Flag) (value : Bool) (sr : Byte) : Byte :=
  if value then sr ||| f.mask else sr &&& ~~~f.mask

/-- The copy of SR that PHP and BRK push: bit 4 set (10_state.md R20; 42_transfer_stack.md R117). -/
def pushedStatus (sr : Byte) : Byte := sr ||| 0x10

/-- What PLP and RTI load into SR from a popped byte: bit 4 cleared (42_transfer_stack.md R119; 46_jump_branch.md R154;
90_conflicts.md C2). DEDUCED by the spec's decision D2: log entry 5. -/
def loadedStatus (popped : Byte) : Byte := popped &&& 0xEF

/-! ### N and Z -/

/-- `sign(v) = v[7]`, also the N flag of a result (40_step_addressing_flags.md R89, R92). -/
def sign (v : Byte) : Bool := v.getLsbD 7

/-- The Z flag of a result: `after == 0` (40_step_addressing_flags.md R90). -/
def isZero (v : Byte) : Bool := v == 0

/-! ### Addition and subtraction -/

/-- `raw = A + M + C` (44_arithmetic_compare.md R130). -/
def adcRaw (a m : Byte) (c : Bool) : Nat := a.toNat + m.toNat + c.toNat

/-- `after = raw & 0xFF` (R130). -/
def adcResult (a m : Byte) (c : Bool) : Byte := BitVec.ofNat 8 (adcRaw a m c)

/-- `C <- (raw > 0xFF)` (R130; 40_step_addressing_flags.md R91). -/
def adcCarry (a m : Byte) (c : Bool) : Bool := decide (adcRaw a m c > 0xFF)

/-- ADC's V: equal signs of the operands, another sign of the result (R130; 40_step_addressing_flags.md R92). -/
def adcOverflow (before m after : Byte) : Bool :=
  sign before == sign m && sign after != sign before

/-- `raw = A - M - (1 - C)`, an unbounded integer (44_arithmetic_compare.md R131). -/
def sbcRaw (a m : Byte) (c : Bool) : Int := a.toNat - m.toNat - (1 - c.toNat)

/-- `after = raw & 0xFF`, that is `raw mod 256` (R131). -/
def sbcResult (a m : Byte) (c : Bool) : Byte := BitVec.ofInt 8 (sbcRaw a m c)

/-- `C <- (raw >= 0)` (R131; 90_conflicts.md C5). -/
def sbcCarry (a m : Byte) (c : Bool) : Bool := decide (0 ≤ sbcRaw a m c)

/-- SBC's V: different signs of the operands, another sign of the result (R131; 40_step_addressing_flags.md R92). -/
def sbcOverflow (before m after : Byte) : Bool :=
  sign before != sign m && sign after != sign before

/-- A compare's `after = (register - M) & 0xFF` (44_arithmetic_compare.md R132 to R134). -/
def compareResult (r m : Byte) : Byte := BitVec.ofInt 8 ((r.toNat : Int) - m.toNat)

/-- A compare's C: `register >= M`, unsigned (R132 to R134; 40_step_addressing_flags.md R91). -/
def compareCarry (r m : Byte) : Bool := decide (m.toNat ≤ r.toNat)

/-! ### Increment and decrement -/

/-- `(v + 1) & 0xFF` (45_incdec_shift.md R140, R142, R143). -/
def incResult (v : Byte) : Byte := v + 1

/-- `(v - 1) & 0xFF` (45_incdec_shift.md R141, R144, R145). -/
def decResult (v : Byte) : Byte := v - 1

/-! ### Shifts and rotates -/

/-- The carry as the byte 0 or 1. -/
def carryByte (c : Bool) : Byte := if c then 1 else 0

/-- The bit ASL and ROL shift out: `M[7]` (45_incdec_shift.md R146, R148). -/
def leftCarry (m : Byte) : Bool := m.getLsbD 7

/-- The bit LSR and ROR shift out: `M[0]` (45_incdec_shift.md R147, R149). -/
def rightCarry (m : Byte) : Bool := m.getLsbD 0

/-- `(M << 1) & 0xFF` (45_incdec_shift.md R146; 90_conflicts.md C11). -/
def aslResult (m : Byte) : Byte := m <<< 1

/-- `M >> 1` (45_incdec_shift.md R147). -/
def lsrResult (m : Byte) : Byte := m >>> 1

/-- `((M << 1) | oldC) & 0xFF` (45_incdec_shift.md R148). -/
def rolResult (m : Byte) (oldC : Bool) : Byte := m <<< 1 ||| carryByte oldC

/-- `(oldC << 7) | (M >> 1)` (45_incdec_shift.md R149). -/
def rorResult (m : Byte) (oldC : Bool) : Byte := carryByte oldC <<< 7 ||| m >>> 1

end Sys2Proof.Machine
end

