-- ==== Sys2Proof/Machine/Ops.lean ====
section
/-! DEFINITION. The named operations over memory and registers: memory (20_memory.md R30 to R35), the registers and SR
(10_state.md), the stack (20_memory.md R40 to R42), the program counter, the trap BRK takes and the return from it
(60_exceptions.md R184, R188), and fetching an instruction (40_step_addressing_flags.md R71 to R73). -/

namespace Sys2Proof.Machine

/-! ### The memory list -/

/-- What an address that is not listed reads as: "all memory zeroed" (10_state.md R26; 20_memory.md R44 (b)). -/
def Memory.unlisted : Byte := 0

/-- Every cell lies at or above `lo`, below 65,536, holds a byte an unlisted address does not read as, and the addresses
rise strictly. -/
def Memory.wfFrom : Nat → Memory → Bool
  | _, [] => true
  | lo, (k, v) :: m => decide (lo ≤ k) && decide (k < 0x10000) && v != unlisted && wfFrom (k + 1) m

/-- The canonical form: equal memories are equal lists. It also says "memory length is exactly 65,536" (10_state.md R27):
no cell lies outside the address space. -/
def Memory.wf (m : Memory) : Bool := Memory.wfFrom 0 m

/-- The byte at a key. -/
def Memory.read : Memory → Nat → Byte
  | [], _ => unlisted
  | (j, v) :: m, k => if j = k then v else Memory.read m k

/-- The list without a key. -/
def Memory.erase : Memory → Nat → Memory
  | [], _ => []
  | (j, v) :: m, k => if j = k then Memory.erase m k else (j, v) :: Memory.erase m k

/-- The list with a cell put before the first higher address. -/
def Memory.insert : Memory → Nat → Byte → Memory
  | [], k, v => [(k, v)]
  | (j, w) :: m, k, v => if k < j then (k, v) :: (j, w) :: m else (j, w) :: Memory.insert m k v

/-- Store a byte, keeping the canonical form: what an unlisted address reads as is not listed. -/
def Memory.write (m : Memory) (k : Nat) (v : Byte) : Memory :=
  if v = unlisted then m.erase k else (m.erase k).insert k v

/-! ### Writing the registers -/

/-- `PC <- v`. -/
def State.setPc (s : State) (v : Addr) : State := { s with pc := v }
/-- `A <- v`. -/
def State.setA (s : State) (v : Byte) : State := { s with a := v }
/-- `X <- v`. -/
def State.setX (s : State) (v : Byte) : State := { s with x := v }
/-- `Y <- v`. -/
def State.setY (s : State) (v : Byte) : State := { s with y := v }
/-- `SP <- v`. -/
def State.setSp (s : State) (v : Byte) : State := { s with sp := v }
/-- `SR <- v`, all eight bits. -/
def State.setSr (s : State) (v : Byte) : State := { s with sr := v }
/-- Replace the memory. -/
def State.setMem (s : State) (m : Memory) : State := { s with mem := m }
/-- Replace the counter. -/
def State.setIc (s : State) (n : Nat) : State := { s with ic := n }

/-- Read one flag of SR. -/
def State.flag (s : State) (f : Flag) : Bool := f.get s.sr

/-- Write one flag of SR and leave the other seven (00_scope.md R6). -/
def State.setFlag (s : State) (f : Flag) (value : Bool) : State := s.setSr (f.put value s.sr)

/-- `setNZ(v)`: N from bit 7, Z from zero-ness (00_scope.md R6; 40_step_addressing_flags.md R89, R90). -/
def State.setNZ (s : State) (v : Byte) : State := (s.setFlag .n (sign v)).setFlag .z (isZero v)

/-! ### Memory accesses -/

/-- `MemRead(addr, 1)`: never faults, changes nothing (20_memory.md R31). -/
def State.readByte (s : State) (addr : Addr) : Byte := s.mem.read addr.toNat

/-- `MemWrite(addr, 1, v)`: changes that one byte, never faults (20_memory.md R32). -/
def State.writeByte (s : State) (addr : Addr) (v : Byte) : State := s.setMem (s.mem.write addr.toNat v)

/-- A byte as an address in page zero, `zext_16` (00_scope.md R6). -/
def zeroPage (p : Byte) : Addr := p.setWidth 16

/-- `Read16(a)`, little-endian, the second address modulo 65,536 (20_memory.md R34). -/
def State.read16 (s : State) (a : Addr) : Addr := makeWord (s.readByte (a + 1)) (s.readByte a)

/-- `Read16ZP(p)`: both bytes in page zero (20_memory.md R35). -/
def State.read16ZP (s : State) (p : Byte) : Addr :=
  makeWord (s.readByte (zeroPage (p + 1))) (s.readByte (zeroPage p))

/-! ### The stack -/

/-- `0x0100 | SP` (10_state.md R13). -/
def stackAddr (sp : Byte) : Addr := 0x0100 ||| zeroPage sp

/-- `Push(v)`: store at `0x0100 | SP`, then decrement SP modulo 256 (20_memory.md R40). -/
def State.push (s : State) (v : Byte) : State := (s.writeByte (stackAddr s.sp) v).setSp (s.sp - 1)

/-- The byte `Pop()` returns: at `0x0100 | SP` after the increment (20_memory.md R41). -/
def State.popValue (s : State) : Byte := s.readByte (stackAddr (s.sp + 1))

/-- What `Pop()` does to the state: SP incremented modulo 256, memory as it was (20_memory.md R41). -/
def State.popped (s : State) : State := s.setSp (s.sp + 1)

/-- Push bytes one after another, the first of the list first (for 20_memory.md R42). -/
def State.pushAll (s : State) : List Byte → State
  | [] => s
  | v :: vs => (s.push v).pushAll vs

/-- The bytes that `n` pops return, in order (for 20_memory.md R42). -/
def State.popValues (s : State) : Nat → List Byte
  | 0 => []
  | n + 1 => s.popValue :: s.popped.popValues n

/-! ### The program counter and the instruction counter -/

/-- PC advanced by `n`, modulo 65,536 (10_state.md R15). -/
def State.advancePc (s : State) (n : Nat) : State := s.setPc (s.pc + BitVec.ofNat 16 n)

/-- `IC <- IC + 1` (40_step_addressing_flags.md R94). -/
def State.countInstruction (s : State) : State := s.setIc (s.ic + 1)

/-- `sext_8(b)` as a 16-bit addend (00_scope.md R6; 30_encoding.md R53). -/
def signExtend (b : Byte) : Addr := b.signExtend 16

/-- A branch: `PC <- (PC + sext_8(rel)) & 0xFFFF` when the condition holds (46_jump_branch.md R155). -/
def State.branchIf (s : State) (cond : Bool) (rel : Byte) : State :=
  if cond then s.setPc (s.pc + signExtend rel) else s

/-! ### Loading a register and setting N and Z -/

/-- `A <- v; setNZ(A)` (41_load_store.md R100 and the like). -/
def State.loadA (s : State) (v : Byte) : State := (s.setA v).setNZ v
/-- `X <- v; setNZ(X)` (41_load_store.md R101 and the like). -/
def State.loadX (s : State) (v : Byte) : State := (s.setX v).setNZ v
/-- `Y <- v; setNZ(Y)` (41_load_store.md R102 and the like). -/
def State.loadY (s : State) (v : Byte) : State := (s.setY v).setNZ v

/-! ### Arithmetic on A, compares, bit test -/

/-- ADC of the operand byte `m` (44_arithmetic_compare.md R130). D is not read (10_state.md R21). -/
def State.adc (s : State) (m : Byte) : State :=
  let after := adcResult s.a m (s.flag .c)
  (((s.setA after).setFlag .c (adcCarry s.a m (s.flag .c))).setFlag .v (adcOverflow s.a m after)).setNZ after

/-- SBC of the operand byte `m` (44_arithmetic_compare.md R131). D is not read (10_state.md R21). -/
def State.sbc (s : State) (m : Byte) : State :=
  let after := sbcResult s.a m (s.flag .c)
  (((s.setA after).setFlag .c (sbcCarry s.a m (s.flag .c))).setFlag .v (sbcOverflow s.a m after)).setNZ after

/-- A compare of the register value `r` with `m`: flags only (44_arithmetic_compare.md R132 to R134). -/
def State.compare (s : State) (r m : Byte) : State :=
  (s.setFlag .c (compareCarry r m)).setNZ (compareResult r m)

/-- BIT: Z from `A & M`, N and V from bits 7 and 6 of M (43_logical_bit.md R123; 90_conflicts.md C9). -/
def State.bitTest (s : State) (m : Byte) : State :=
  ((s.setFlag .z (isZero (s.a &&& m))).setFlag .n (m.getLsbD 7)).setFlag .v (m.getLsbD 6)

/-! ### Read-modify-write -/

/-- `WriteBack(result)` in a memory mode, with N and Z from the result: one write of `ea`
(40_step_addressing_flags.md R88; 45_incdec_shift.md R140, R141). -/
def State.writeBack (s : State) (ea : Addr) (result : Byte) : State := (s.setNZ result).writeByte ea result

/-! ### Calls, returns and the trap -/

/-- JSR's operation, PC being past the instruction: push `PC - 1` high byte first, then go to the target
(46_jump_branch.md R152). -/
def State.call (s : State) (target : Addr) : State :=
  let ret := s.pc - 1
  ((s.push (hiByte ret)).push (loByte ret)).setPc target

/-- RTS's operation: pop low, pop high, add one (46_jump_branch.md R153). -/
def State.returnFromCall (s : State) : State :=
  s.popped.popped.setPc (makeWord s.popped.popValue s.popValue + 1)

/-- The address BRK takes its target from, low byte there and high byte at the next (60_exceptions.md R184 (d)). -/
def brkVector : Addr := 0xFFFE

/-- Taking the trap BRK, the machine's only one, PC being past the opcode byte: PC moves past the skipped byte, then
PC high, PC low and SR with bit 4 set are pushed, I is set, and PC is read from the vector after the pushes
(47_flag_brk_nop.md R177; 60_exceptions.md R184). -/
def State.enterTrap (s : State) : State :=
  let ret := s.pc + 1
  let t := (((s.push (hiByte ret)).push (loByte ret)).push (pushedStatus s.sr)).setFlag .i true
  t.setPc (t.read16 brkVector)

/-- Returning from the trap: pop SR with bit 4 cleared, pop PC low, pop PC high, nothing added
(46_jump_branch.md R154; 60_exceptions.md R188). -/
def State.returnFromTrap (s : State) : State :=
  (s.popped.popped.popped.setSr (loadedStatus s.popValue)).setPc
    (makeWord s.popped.popped.popValue s.popped.popValue)

/-! ### Fetching an instruction -/

/-- The bytes at PC, PC + 1 and PC + 2, each address modulo 65,536 (40_step_addressing_flags.md R71, R73; 30_encoding.md
R50). The decoder uses as many of them as the mode has; reads have no side effect (20_memory.md R38): log entry 11. -/
def State.fetchWindow (s : State) : List Byte :=
  [s.readByte s.pc, s.readByte (s.pc + 1), s.readByte (s.pc + 2)]

/-- The instruction at PC, or why there is none (40_step_addressing_flags.md R71 to R73). -/
def State.fetch (s : State) : Except Reject Instr :=
  match decode s.fetchWindow with
  | .ok (i, _) => .ok i
  | .error r => .error r

/-- Store bytes at consecutive addresses in ascending order, modulo 65,536 (70_reset_and_hazards.md R208). -/
def State.writeBytes (s : State) (dest : Addr) : List Byte → State
  | [] => s
  | v :: vs => (s.writeByte dest v).writeBytes (dest + 1) vs

end Sys2Proof.Machine
end

