-- ==== Sys2Proof/Machine/Operands.lean ====
section
/-! DEFINITION. The addressing modes: effective addresses, operand bytes, the indirect jump's target
(40_step_addressing_flags.md R74 to R87). -/

namespace Sys2Proof.Machine

/-- `EA`, the effective address of a memory operand (40_step_addressing_flags.md R77 to R82, R84, R85): zero-page
indexing wraps in page zero, absolute and indirect indexing is a 16-bit add. -/
def State.ea (s : State) : MemOperand → Addr
  | .zp zp => zeroPage zp
  | .zpx zp => zeroPage (zp + s.x)
  | .zpy zp => zeroPage (zp + s.y)
  | .abs addr => addr
  | .abx base => base + zeroPage s.x
  | .aby base => base + zeroPage s.y
  | .izx zp => s.read16ZP (zp + s.x)
  | .izy zp => s.read16ZP zp + zeroPage s.y

/-- `M` of a memory mode: one read at `EA` (40_step_addressing_flags.md R87). -/
def State.load (s : State) (m : MemOperand) : Byte := s.readByte (s.ea m)

/-- INC and DEC: one read of `EA`, N and Z from the result, one write of `EA` (45_incdec_shift.md R140, R141). -/
def State.modify (s : State) (m : MemOperand) (f : Byte → Byte) : State := s.writeBack (s.ea m) (f (s.load m))

/-- A shift or rotate in a memory mode: C from the shifted-out bit of M, N and Z from the result, written back to `EA`
(45_incdec_shift.md R146 to R149). -/
def State.shiftMem (s : State) (m : MemOperand) (f : Byte → Byte) (carry : Byte → Bool) : State :=
  (s.setFlag .c (carry (s.load m))).writeBack (s.ea m) (f (s.load m))

/-- A shift or rotate in mode ACC: M is A and the result goes to A (45_incdec_shift.md R146 to R149;
40_step_addressing_flags.md R75). -/
def State.shiftAcc (s : State) (f : Byte → Byte) (carry : Byte → Bool) : State :=
  (s.setFlag .c (carry s.a)).loadA (f s.a)

/-- Where the high byte of an indirect jump's target lies, for either value of `JMP_IND_PAGE_WRAP`
(40_step_addressing_flags.md R83; 46_jump_branch.md R151). The test of the low byte comes first, so that a pointer whose
low byte is not 0xFF does not depend on the parameter. -/
def indirectHighAddr (pageWrap : Bool) (ptr : Addr) : Addr :=
  if loByte ptr == 0xFF && pageWrap then ptr &&& 0xFF00 else ptr + 1

/-- The target of an indirect jump through `ptr` (46_jump_branch.md R151). -/
def State.indirectTarget (s : State) (pageWrap : Bool) (ptr : Addr) : Addr :=
  makeWord (s.readByte (indirectHighAddr pageWrap ptr)) (s.readByte ptr)

end Sys2Proof.Machine
end

