-- ==== Sys2Proof/Machine/Arithmetic.lean ====
section
/-! DEFINITION. The meanings of the ADC, SBC and the compares (44_arithmetic_compare.md), one definition per row of
spec/opcode_table.json. In each, PC already points past the instruction's last operand byte (00_scope.md R7). None can fault
or refuse. -/

namespace Sys2Proof.Machine

/-- ADC #$nn: R130 with R76, bytes 69 imm. -/
def execAdcImm (imm : Byte) (s : State) : Result :=
  .next (s.adc imm)

/-- ADC $nn: R130 with R77, bytes 65 zp. -/
def execAdcZp (zp : Byte) (s : State) : Result :=
  .next (s.adc (s.load (.zp zp)))

/-- ADC $nn,X: R130 with R78, bytes 75 zp. -/
def execAdcZpx (zp : Byte) (s : State) : Result :=
  .next (s.adc (s.load (.zpx zp)))

/-- ADC $hhll: R130 with R80, bytes 6D lo hi. -/
def execAdcAbs (addr : Addr) (s : State) : Result :=
  .next (s.adc (s.load (.abs addr)))

/-- ADC $hhll,X: R130 with R81, bytes 7D lo hi. -/
def execAdcAbx (base : Addr) (s : State) : Result :=
  .next (s.adc (s.load (.abx base)))

/-- ADC $hhll,Y: R130 with R82, bytes 79 lo hi. -/
def execAdcAby (base : Addr) (s : State) : Result :=
  .next (s.adc (s.load (.aby base)))

/-- ADC ($nn,X): R130 with R84, bytes 61 zp. -/
def execAdcIzx (zp : Byte) (s : State) : Result :=
  .next (s.adc (s.load (.izx zp)))

/-- ADC ($nn),Y: R130 with R85, bytes 71 zp. -/
def execAdcIzy (zp : Byte) (s : State) : Result :=
  .next (s.adc (s.load (.izy zp)))

/-- SBC #$nn: R131 with R76, bytes E9 imm. -/
def execSbcImm (imm : Byte) (s : State) : Result :=
  .next (s.sbc imm)

/-- SBC $nn: R131 with R77, bytes E5 zp. -/
def execSbcZp (zp : Byte) (s : State) : Result :=
  .next (s.sbc (s.load (.zp zp)))

/-- SBC $nn,X: R131 with R78, bytes F5 zp. -/
def execSbcZpx (zp : Byte) (s : State) : Result :=
  .next (s.sbc (s.load (.zpx zp)))

/-- SBC $hhll: R131 with R80, bytes ED lo hi. -/
def execSbcAbs (addr : Addr) (s : State) : Result :=
  .next (s.sbc (s.load (.abs addr)))

/-- SBC $hhll,X: R131 with R81, bytes FD lo hi. -/
def execSbcAbx (base : Addr) (s : State) : Result :=
  .next (s.sbc (s.load (.abx base)))

/-- SBC $hhll,Y: R131 with R82, bytes F9 lo hi. -/
def execSbcAby (base : Addr) (s : State) : Result :=
  .next (s.sbc (s.load (.aby base)))

/-- SBC ($nn,X): R131 with R84, bytes E1 zp. -/
def execSbcIzx (zp : Byte) (s : State) : Result :=
  .next (s.sbc (s.load (.izx zp)))

/-- SBC ($nn),Y: R131 with R85, bytes F1 zp. -/
def execSbcIzy (zp : Byte) (s : State) : Result :=
  .next (s.sbc (s.load (.izy zp)))

/-- CMP #$nn: R132 with R76, bytes C9 imm. -/
def execCmpImm (imm : Byte) (s : State) : Result :=
  .next (s.compare s.a imm)

/-- CMP $nn: R132 with R77, bytes C5 zp. -/
def execCmpZp (zp : Byte) (s : State) : Result :=
  .next (s.compare s.a (s.load (.zp zp)))

/-- CMP $nn,X: R132 with R78, bytes D5 zp. -/
def execCmpZpx (zp : Byte) (s : State) : Result :=
  .next (s.compare s.a (s.load (.zpx zp)))

/-- CMP $hhll: R132 with R80, bytes CD lo hi. -/
def execCmpAbs (addr : Addr) (s : State) : Result :=
  .next (s.compare s.a (s.load (.abs addr)))

/-- CMP $hhll,X: R132 with R81, bytes DD lo hi. -/
def execCmpAbx (base : Addr) (s : State) : Result :=
  .next (s.compare s.a (s.load (.abx base)))

/-- CMP $hhll,Y: R132 with R82, bytes D9 lo hi. -/
def execCmpAby (base : Addr) (s : State) : Result :=
  .next (s.compare s.a (s.load (.aby base)))

/-- CMP ($nn,X): R132 with R84, bytes C1 zp. -/
def execCmpIzx (zp : Byte) (s : State) : Result :=
  .next (s.compare s.a (s.load (.izx zp)))

/-- CMP ($nn),Y: R132 with R85, bytes D1 zp. -/
def execCmpIzy (zp : Byte) (s : State) : Result :=
  .next (s.compare s.a (s.load (.izy zp)))

/-- CPX #$nn: R133 with R76, bytes E0 imm. -/
def execCpxImm (imm : Byte) (s : State) : Result :=
  .next (s.compare s.x imm)

/-- CPX $nn: R133 with R77, bytes E4 zp. -/
def execCpxZp (zp : Byte) (s : State) : Result :=
  .next (s.compare s.x (s.load (.zp zp)))

/-- CPX $hhll: R133 with R80, bytes EC lo hi. -/
def execCpxAbs (addr : Addr) (s : State) : Result :=
  .next (s.compare s.x (s.load (.abs addr)))

/-- CPY #$nn: R134 with R76, bytes C0 imm. -/
def execCpyImm (imm : Byte) (s : State) : Result :=
  .next (s.compare s.y imm)

/-- CPY $nn: R134 with R77, bytes C4 zp. -/
def execCpyZp (zp : Byte) (s : State) : Result :=
  .next (s.compare s.y (s.load (.zp zp)))

/-- CPY $hhll: R134 with R80, bytes CC lo hi. -/
def execCpyAbs (addr : Addr) (s : State) : Result :=
  .next (s.compare s.y (s.load (.abs addr)))

end Sys2Proof.Machine
end

