-- ==== Sys2Proof/Machine/FlagBrkNop.lean ====
section
/-! DEFINITION. The meanings of the flag instructions, BRK and NOP (47_flag_brk_nop.md), one definition per row of
spec/opcode_table.json. In each, PC already points past the instruction's last operand byte (00_scope.md R7). None can fault
or refuse. -/

namespace Sys2Proof.Machine

/-- CLC: R170 with R74, byte 18. -/
def execClc (s : State) : Result :=
  .next (s.setFlag .c false)

/-- SEC: R171 with R74, byte 38. -/
def execSec (s : State) : Result :=
  .next (s.setFlag .c true)

/-- CLD: R172 with R74, byte D8. -/
def execCld (s : State) : Result :=
  .next (s.setFlag .d false)

/-- SED: R173 with R74, byte F8. -/
def execSed (s : State) : Result :=
  .next (s.setFlag .d true)

/-- CLI: R174 with R74, byte 58. -/
def execCli (s : State) : Result :=
  .next (s.setFlag .i false)

/-- SEI: R175 with R74, byte 78. -/
def execSei (s : State) : Result :=
  .next (s.setFlag .i true)

/-- CLV: R176 with R74, byte B8. -/
def execClv (s : State) : Result :=
  .next (s.setFlag .v false)

/-- BRK: R177 with R74, byte 00. -/
def execBrk (s : State) : Result :=
  .next (s.enterTrap)

/-- NOP: R178 with R74, byte EA. -/
def execNop (s : State) : Result :=
  .next s

end Sys2Proof.Machine
end

