-- ==== Sys2Proof/Machine/IncDecShift.lean ====
section
/-! DEFINITION. The meanings of the increments, decrements, shifts and rotates (45_incdec_shift.md), one definition per row of
spec/opcode_table.json. In each, PC already points past the instruction's last operand byte (00_scope.md R7). None can fault
or refuse. -/

namespace Sys2Proof.Machine

/-- INC $nn: R140 with R77, bytes E6 zp. -/
def execIncZp (zp : Byte) (s : State) : Result :=
  .next (s.modify (.zp zp) incResult)

/-- INC $nn,X: R140 with R78, bytes F6 zp. -/
def execIncZpx (zp : Byte) (s : State) : Result :=
  .next (s.modify (.zpx zp) incResult)

/-- INC $hhll: R140 with R80, bytes EE lo hi. -/
def execIncAbs (addr : Addr) (s : State) : Result :=
  .next (s.modify (.abs addr) incResult)

/-- INC $hhll,X: R140 with R81, bytes FE lo hi. -/
def execIncAbx (base : Addr) (s : State) : Result :=
  .next (s.modify (.abx base) incResult)

/-- DEC $nn: R141 with R77, bytes C6 zp. -/
def execDecZp (zp : Byte) (s : State) : Result :=
  .next (s.modify (.zp zp) decResult)

/-- DEC $nn,X: R141 with R78, bytes D6 zp. -/
def execDecZpx (zp : Byte) (s : State) : Result :=
  .next (s.modify (.zpx zp) decResult)

/-- DEC $hhll: R141 with R80, bytes CE lo hi. -/
def execDecAbs (addr : Addr) (s : State) : Result :=
  .next (s.modify (.abs addr) decResult)

/-- DEC $hhll,X: R141 with R81, bytes DE lo hi. -/
def execDecAbx (base : Addr) (s : State) : Result :=
  .next (s.modify (.abx base) decResult)

/-- INX: R142 with R74, byte E8. -/
def execInx (s : State) : Result :=
  .next (s.loadX (incResult s.x))

/-- INY: R143 with R74, byte C8. -/
def execIny (s : State) : Result :=
  .next (s.loadY (incResult s.y))

/-- DEX: R144 with R74, byte CA. -/
def execDex (s : State) : Result :=
  .next (s.loadX (decResult s.x))

/-- DEY: R145 with R74, byte 88. -/
def execDey (s : State) : Result :=
  .next (s.loadY (decResult s.y))

/-- ASL A: R146 with R75, byte 0A. -/
def execAslAcc (s : State) : Result :=
  .next (s.shiftAcc aslResult leftCarry)

/-- ASL $nn: R146 with R77, bytes 06 zp. -/
def execAslZp (zp : Byte) (s : State) : Result :=
  .next (s.shiftMem (.zp zp) aslResult leftCarry)

/-- ASL $nn,X: R146 with R78, bytes 16 zp. -/
def execAslZpx (zp : Byte) (s : State) : Result :=
  .next (s.shiftMem (.zpx zp) aslResult leftCarry)

/-- ASL $hhll: R146 with R80, bytes 0E lo hi. -/
def execAslAbs (addr : Addr) (s : State) : Result :=
  .next (s.shiftMem (.abs addr) aslResult leftCarry)

/-- ASL $hhll,X: R146 with R81, bytes 1E lo hi. -/
def execAslAbx (base : Addr) (s : State) : Result :=
  .next (s.shiftMem (.abx base) aslResult leftCarry)

/-- LSR A: R147 with R75, byte 4A. -/
def execLsrAcc (s : State) : Result :=
  .next (s.shiftAcc lsrResult rightCarry)

/-- LSR $nn: R147 with R77, bytes 46 zp. -/
def execLsrZp (zp : Byte) (s : State) : Result :=
  .next (s.shiftMem (.zp zp) lsrResult rightCarry)

/-- LSR $nn,X: R147 with R78, bytes 56 zp. -/
def execLsrZpx (zp : Byte) (s : State) : Result :=
  .next (s.shiftMem (.zpx zp) lsrResult rightCarry)

/-- LSR $hhll: R147 with R80, bytes 4E lo hi. -/
def execLsrAbs (addr : Addr) (s : State) : Result :=
  .next (s.shiftMem (.abs addr) lsrResult rightCarry)

/-- LSR $hhll,X: R147 with R81, bytes 5E lo hi. -/
def execLsrAbx (base : Addr) (s : State) : Result :=
  .next (s.shiftMem (.abx base) lsrResult rightCarry)

/-- ROL A: R148 with R75, byte 2A. -/
def execRolAcc (s : State) : Result :=
  .next (s.shiftAcc (fun m => rolResult m (s.flag .c)) leftCarry)

/-- ROL $nn: R148 with R77, bytes 26 zp. -/
def execRolZp (zp : Byte) (s : State) : Result :=
  .next (s.shiftMem (.zp zp) (fun m => rolResult m (s.flag .c)) leftCarry)

/-- ROL $nn,X: R148 with R78, bytes 36 zp. -/
def execRolZpx (zp : Byte) (s : State) : Result :=
  .next (s.shiftMem (.zpx zp) (fun m => rolResult m (s.flag .c)) leftCarry)

/-- ROL $hhll: R148 with R80, bytes 2E lo hi. -/
def execRolAbs (addr : Addr) (s : State) : Result :=
  .next (s.shiftMem (.abs addr) (fun m => rolResult m (s.flag .c)) leftCarry)

/-- ROL $hhll,X: R148 with R81, bytes 3E lo hi. -/
def execRolAbx (base : Addr) (s : State) : Result :=
  .next (s.shiftMem (.abx base) (fun m => rolResult m (s.flag .c)) leftCarry)

/-- ROR A: R149 with R75, byte 6A. -/
def execRorAcc (s : State) : Result :=
  .next (s.shiftAcc (fun m => rorResult m (s.flag .c)) rightCarry)

/-- ROR $nn: R149 with R77, bytes 66 zp. -/
def execRorZp (zp : Byte) (s : State) : Result :=
  .next (s.shiftMem (.zp zp) (fun m => rorResult m (s.flag .c)) rightCarry)

/-- ROR $nn,X: R149 with R78, bytes 76 zp. -/
def execRorZpx (zp : Byte) (s : State) : Result :=
  .next (s.shiftMem (.zpx zp) (fun m => rorResult m (s.flag .c)) rightCarry)

/-- ROR $hhll: R149 with R80, bytes 6E lo hi. -/
def execRorAbs (addr : Addr) (s : State) : Result :=
  .next (s.shiftMem (.abs addr) (fun m => rorResult m (s.flag .c)) rightCarry)

/-- ROR $hhll,X: R149 with R81, bytes 7E lo hi. -/
def execRorAbx (base : Addr) (s : State) : Result :=
  .next (s.shiftMem (.abx base) (fun m => rorResult m (s.flag .c)) rightCarry)

end Sys2Proof.Machine
end

