-- ==== Sys2Proof/Machine/JumpBranch.lean ====
section
/-! DEFINITION. The meanings of the jumps, calls, returns and branches (46_jump_branch.md), one definition per row of
spec/opcode_table.json. In each, PC already points past the instruction's last operand byte (00_scope.md R7). None can fault
or refuse. -/

namespace Sys2Proof.Machine

/-- JMP $hhll: R150 with R80, bytes 4C lo hi. -/
def execJmpAbs (addr : Addr) (s : State) : Result :=
  .next (s.setPc addr)

/-- JMP ($hhll): R151 with R83, bytes 6C lo hi. -/
def execJmpInd (ptr : Addr) (s : State) : Result :=
  .next (s.setPc (s.indirectTarget Config.jmpIndPageWrap ptr))

/-- JSR $hhll: R152 with R80, bytes 20 lo hi. -/
def execJsrAbs (addr : Addr) (s : State) : Result :=
  .next (s.call addr)

/-- RTS: R153 with R74, byte 60. -/
def execRts (s : State) : Result :=
  .next (s.returnFromCall)

/-- RTI: R154 with R74, byte 40. -/
def execRti (s : State) : Result :=
  .next (s.returnFromTrap)

/-- BCC rel: R156 with R86, bytes 90 rel. -/
def execBcc (rel : Byte) (s : State) : Result :=
  .next (s.branchIf (!s.flag .c) rel)

/-- BCS rel: R157 with R86, bytes B0 rel. -/
def execBcs (rel : Byte) (s : State) : Result :=
  .next (s.branchIf (s.flag .c) rel)

/-- BNE rel: R158 with R86, bytes D0 rel. -/
def execBne (rel : Byte) (s : State) : Result :=
  .next (s.branchIf (!s.flag .z) rel)

/-- BEQ rel: R159 with R86, bytes F0 rel. -/
def execBeq (rel : Byte) (s : State) : Result :=
  .next (s.branchIf (s.flag .z) rel)

/-- BPL rel: R160 with R86, bytes 10 rel. -/
def execBpl (rel : Byte) (s : State) : Result :=
  .next (s.branchIf (!s.flag .n) rel)

/-- BMI rel: R161 with R86, bytes 30 rel. -/
def execBmi (rel : Byte) (s : State) : Result :=
  .next (s.branchIf (s.flag .n) rel)

/-- BVC rel: R162 with R86, bytes 50 rel. -/
def execBvc (rel : Byte) (s : State) : Result :=
  .next (s.branchIf (!s.flag .v) rel)

/-- BVS rel: R163 with R86, bytes 70 rel. -/
def execBvs (rel : Byte) (s : State) : Result :=
  .next (s.branchIf (s.flag .v) rel)

end Sys2Proof.Machine
end

