-- ==== Sys2Proof/Machine/LoadStore.lean ====
section
/-! DEFINITION. The meanings of the loads and stores (41_load_store.md), one definition per row of
spec/opcode_table.json. In each, PC already points past the instruction's last operand byte (00_scope.md R7). None can fault
or refuse. -/

namespace Sys2Proof.Machine

/-- LDA #$nn: R100 with R76, bytes A9 imm. -/
def execLdaImm (imm : Byte) (s : State) : Result :=
  .next (s.loadA imm)

/-- LDA $nn: R100 with R77, bytes A5 zp. -/
def execLdaZp (zp : Byte) (s : State) : Result :=
  .next (s.loadA (s.load (.zp zp)))

/-- LDA $nn,X: R100 with R78, bytes B5 zp. -/
def execLdaZpx (zp : Byte) (s : State) : Result :=
  .next (s.loadA (s.load (.zpx zp)))

/-- LDA $hhll: R100 with R80, bytes AD lo hi. -/
def execLdaAbs (addr : Addr) (s : State) : Result :=
  .next (s.loadA (s.load (.abs addr)))

/-- LDA $hhll,X: R100 with R81, bytes BD lo hi. -/
def execLdaAbx (base : Addr) (s : State) : Result :=
  .next (s.loadA (s.load (.abx base)))

/-- LDA $hhll,Y: R100 with R82, bytes B9 lo hi. -/
def execLdaAby (base : Addr) (s : State) : Result :=
  .next (s.loadA (s.load (.aby base)))

/-- LDA ($nn,X): R100 with R84, bytes A1 zp. -/
def execLdaIzx (zp : Byte) (s : State) : Result :=
  .next (s.loadA (s.load (.izx zp)))

/-- LDA ($nn),Y: R100 with R85, bytes B1 zp. -/
def execLdaIzy (zp : Byte) (s : State) : Result :=
  .next (s.loadA (s.load (.izy zp)))

/-- LDX #$nn: R101 with R76, bytes A2 imm. -/
def execLdxImm (imm : Byte) (s : State) : Result :=
  .next (s.loadX imm)

/-- LDX $nn: R101 with R77, bytes A6 zp. -/
def execLdxZp (zp : Byte) (s : State) : Result :=
  .next (s.loadX (s.load (.zp zp)))

/-- LDX $nn,Y: R101 with R79, bytes B6 zp. -/
def execLdxZpy (zp : Byte) (s : State) : Result :=
  .next (s.loadX (s.load (.zpy zp)))

/-- LDX $hhll: R101 with R80, bytes AE lo hi. -/
def execLdxAbs (addr : Addr) (s : State) : Result :=
  .next (s.loadX (s.load (.abs addr)))

/-- LDX $hhll,Y: R101 with R82, bytes BE lo hi. -/
def execLdxAby (base : Addr) (s : State) : Result :=
  .next (s.loadX (s.load (.aby base)))

/-- LDY #$nn: R102 with R76, bytes A0 imm. -/
def execLdyImm (imm : Byte) (s : State) : Result :=
  .next (s.loadY imm)

/-- LDY $nn: R102 with R77, bytes A4 zp. -/
def execLdyZp (zp : Byte) (s : State) : Result :=
  .next (s.loadY (s.load (.zp zp)))

/-- LDY $nn,X: R102 with R78, bytes B4 zp. -/
def execLdyZpx (zp : Byte) (s : State) : Result :=
  .next (s.loadY (s.load (.zpx zp)))

/-- LDY $hhll: R102 with R80, bytes AC lo hi. -/
def execLdyAbs (addr : Addr) (s : State) : Result :=
  .next (s.loadY (s.load (.abs addr)))

/-- LDY $hhll,X: R102 with R81, bytes BC lo hi. -/
def execLdyAbx (base : Addr) (s : State) : Result :=
  .next (s.loadY (s.load (.abx base)))

/-- STA $nn: R103 with R77, bytes 85 zp. -/
def execStaZp (zp : Byte) (s : State) : Result :=
  .next (s.writeByte (s.ea (.zp zp)) s.a)

/-- STA $nn,X: R103 with R78, bytes 95 zp. -/
def execStaZpx (zp : Byte) (s : State) : Result :=
  .next (s.writeByte (s.ea (.zpx zp)) s.a)

/-- STA $hhll: R103 with R80, bytes 8D lo hi. -/
def execStaAbs (addr : Addr) (s : State) : Result :=
  .next (s.writeByte (s.ea (.abs addr)) s.a)

/-- STA $hhll,X: R103 with R81, bytes 9D lo hi. -/
def execStaAbx (base : Addr) (s : State) : Result :=
  .next (s.writeByte (s.ea (.abx base)) s.a)

/-- STA $hhll,Y: R103 with R82, bytes 99 lo hi. -/
def execStaAby (base : Addr) (s : State) : Result :=
  .next (s.writeByte (s.ea (.aby base)) s.a)

/-- STA ($nn,X): R103 with R84, bytes 81 zp. -/
def execStaIzx (zp : Byte) (s : State) : Result :=
  .next (s.writeByte (s.ea (.izx zp)) s.a)

/-- STA ($nn),Y: R103 with R85, bytes 91 zp. -/
def execStaIzy (zp : Byte) (s : State) : Result :=
  .next (s.writeByte (s.ea (.izy zp)) s.a)

/-- STX $nn: R104 with R77, bytes 86 zp. -/
def execStxZp (zp : Byte) (s : State) : Result :=
  .next (s.writeByte (s.ea (.zp zp)) s.x)

/-- STX $nn,Y: R104 with R79, bytes 96 zp. -/
def execStxZpy (zp : Byte) (s : State) : Result :=
  .next (s.writeByte (s.ea (.zpy zp)) s.x)

/-- STX $hhll: R104 with R80, bytes 8E lo hi. -/
def execStxAbs (addr : Addr) (s : State) : Result :=
  .next (s.writeByte (s.ea (.abs addr)) s.x)

/-- STY $nn: R105 with R77, bytes 84 zp. -/
def execStyZp (zp : Byte) (s : State) : Result :=
  .next (s.writeByte (s.ea (.zp zp)) s.y)

/-- STY $nn,X: R105 with R78, bytes 94 zp. -/
def execStyZpx (zp : Byte) (s : State) : Result :=
  .next (s.writeByte (s.ea (.zpx zp)) s.y)

/-- STY $hhll: R105 with R80, bytes 8C lo hi. -/
def execStyAbs (addr : Addr) (s : State) : Result :=
  .next (s.writeByte (s.ea (.abs addr)) s.y)

end Sys2Proof.Machine
end

