-- ==== Sys2Proof/Machine/LogicalBit.lean ====
section
/-! DEFINITION. The meanings of the logical instructions and the bit test (43_logical_bit.md), one definition per row of
spec/opcode_table.json. In each, PC already points past the instruction's last operand byte (00_scope.md R7). None can fault
or refuse. -/

namespace Sys2Proof.Machine

/-- AND #$nn: R120 with R76, bytes 29 imm. -/
def execAndImm (imm : Byte) (s : State) : Result :=
  .next (s.loadA (s.a &&& imm))

/-- AND $nn: R120 with R77, bytes 25 zp. -/
def execAndZp (zp : Byte) (s : State) : Result :=
  .next (s.loadA (s.a &&& s.load (.zp zp)))

/-- AND $nn,X: R120 with R78, bytes 35 zp. -/
def execAndZpx (zp : Byte) (s : State) : Result :=
  .next (s.loadA (s.a &&& s.load (.zpx zp)))

/-- AND $hhll: R120 with R80, bytes 2D lo hi. -/
def execAndAbs (addr : Addr) (s : State) : Result :=
  .next (s.loadA (s.a &&& s.load (.abs addr)))

/-- AND $hhll,X: R120 with R81, bytes 3D lo hi. -/
def execAndAbx (base : Addr) (s : State) : Result :=
  .next (s.loadA (s.a &&& s.load (.abx base)))

/-- AND $hhll,Y: R120 with R82, bytes 39 lo hi. -/
def execAndAby (base : Addr) (s : State) : Result :=
  .next (s.loadA (s.a &&& s.load (.aby base)))

/-- AND ($nn,X): R120 with R84, bytes 21 zp. -/
def execAndIzx (zp : Byte) (s : State) : Result :=
  .next (s.loadA (s.a &&& s.load (.izx zp)))

/-- AND ($nn),Y: R120 with R85, bytes 31 zp. -/
def execAndIzy (zp : Byte) (s : State) : Result :=
  .next (s.loadA (s.a &&& s.load (.izy zp)))

/-- ORA #$nn: R121 with R76, bytes 09 imm. -/
def execOraImm (imm : Byte) (s : State) : Result :=
  .next (s.loadA (s.a ||| imm))

/-- ORA $nn: R121 with R77, bytes 05 zp. -/
def execOraZp (zp : Byte) (s : State) : Result :=
  .next (s.loadA (s.a ||| s.load (.zp zp)))

/-- ORA $nn,X: R121 with R78, bytes 15 zp. -/
def execOraZpx (zp : Byte) (s : State) : Result :=
  .next (s.loadA (s.a ||| s.load (.zpx zp)))

/-- ORA $hhll: R121 with R80, bytes 0D lo hi. -/
def execOraAbs (addr : Addr) (s : State) : Result :=
  .next (s.loadA (s.a ||| s.load (.abs addr)))

/-- ORA $hhll,X: R121 with R81, bytes 1D lo hi. -/
def execOraAbx (base : Addr) (s : State) : Result :=
  .next (s.loadA (s.a ||| s.load (.abx base)))

/-- ORA $hhll,Y: R121 with R82, bytes 19 lo hi. -/
def execOraAby (base : Addr) (s : State) : Result :=
  .next (s.loadA (s.a ||| s.load (.aby base)))

/-- ORA ($nn,X): R121 with R84, bytes 01 zp. -/
def execOraIzx (zp : Byte) (s : State) : Result :=
  .next (s.loadA (s.a ||| s.load (.izx zp)))

/-- ORA ($nn),Y: R121 with R85, bytes 11 zp. -/
def execOraIzy (zp : Byte) (s : State) : Result :=
  .next (s.loadA (s.a ||| s.load (.izy zp)))

/-- EOR #$nn: R122 with R76, bytes 49 imm. -/
def execEorImm (imm : Byte) (s : State) : Result :=
  .next (s.loadA (s.a ^^^ imm))

/-- EOR $nn: R122 with R77, bytes 45 zp. -/
def execEorZp (zp : Byte) (s : State) : Result :=
  .next (s.loadA (s.a ^^^ s.load (.zp zp)))

/-- EOR $nn,X: R122 with R78, bytes 55 zp. -/
def execEorZpx (zp : Byte) (s : State) : Result :=
  .next (s.loadA (s.a ^^^ s.load (.zpx zp)))

/-- EOR $hhll: R122 with R80, bytes 4D lo hi. -/
def execEorAbs (addr : Addr) (s : State) : Result :=
  .next (s.loadA (s.a ^^^ s.load (.abs addr)))

/-- EOR $hhll,X: R122 with R81, bytes 5D lo hi. -/
def execEorAbx (base : Addr) (s : State) : Result :=
  .next (s.loadA (s.a ^^^ s.load (.abx base)))

/-- EOR $hhll,Y: R122 with R82, bytes 59 lo hi. -/
def execEorAby (base : Addr) (s : State) : Result :=
  .next (s.loadA (s.a ^^^ s.load (.aby base)))

/-- EOR ($nn,X): R122 with R84, bytes 41 zp. -/
def execEorIzx (zp : Byte) (s : State) : Result :=
  .next (s.loadA (s.a ^^^ s.load (.izx zp)))

/-- EOR ($nn),Y: R122 with R85, bytes 51 zp. -/
def execEorIzy (zp : Byte) (s : State) : Result :=
  .next (s.loadA (s.a ^^^ s.load (.izy zp)))

/-- BIT $nn: R123 with R77, bytes 24 zp. -/
def execBitZp (zp : Byte) (s : State) : Result :=
  .next (s.bitTest (s.load (.zp zp)))

/-- BIT $hhll: R123 with R80, bytes 2C lo hi. -/
def execBitAbs (addr : Addr) (s : State) : Result :=
  .next (s.bitTest (s.load (.abs addr)))

end Sys2Proof.Machine
end

