-- ==== Sys2Proof/Machine/TransferStack.lean ====
section
/-! DEFINITION. The meanings of the register transfers and stack instructions (42_transfer_stack.md), one definition per row of
spec/opcode_table.json. In each, PC already points past the instruction's last operand byte (00_scope.md R7). None can fault
or refuse. -/

namespace Sys2Proof.Machine

/-- TAX: R110 with R74, byte AA. -/
def execTax (s : State) : Result :=
  .next (s.loadX s.a)

/-- TAY: R111 with R74, byte A8. -/
def execTay (s : State) : Result :=
  .next (s.loadY s.a)

/-- TSX: R112 with R74, byte BA. -/
def execTsx (s : State) : Result :=
  .next (s.loadX s.sp)

/-- TXA: R113 with R74, byte 8A. -/
def execTxa (s : State) : Result :=
  .next (s.loadA s.x)

/-- TYA: R114 with R74, byte 98. -/
def execTya (s : State) : Result :=
  .next (s.loadA s.y)

/-- TXS: R115 with R74, byte 9A. -/
def execTxs (s : State) : Result :=
  .next (s.setSp s.x)

/-- PHA: R116 with R74, byte 48. -/
def execPha (s : State) : Result :=
  .next (s.push s.a)

/-- PHP: R117 with R74, byte 08. -/
def execPhp (s : State) : Result :=
  .next (s.push (pushedStatus s.sr))

/-- PLA: R118 with R74, byte 68. -/
def execPla (s : State) : Result :=
  .next (s.popped.loadA s.popValue)

/-- PLP: R119 with R74, byte 28. -/
def execPlp (s : State) : Result :=
  .next (s.popped.setSr (loadedStatus s.popValue))

end Sys2Proof.Machine
end

