-- ==== Sys2Proof/Machine/Step.lean ====
section
/-! DEFINITION. One step (40_step_addressing_flags.md R70): fetch and decode at PC, move PC past the instruction, run its
meaning, count it. Also where the host places an instruction that the next step is to run. -/

namespace Sys2Proof.Machine

/-- `step()` executes exactly one instruction. An unassigned opcode byte is the fault `UnknownOpcode(op, addr)` with the
state unchanged (60_exceptions.md R180, R181). PC past the instruction's bytes before its meaning runs: R73.
The counter last: R94. -/
def step (s : State) : Host.Outcome State Fault Refusal :=
  match s.fetch with
  | .error _ => .fault (.unknownOpcode (s.readByte s.pc) s.pc)
  | .ok i =>
    match exec i (s.advancePc i.length) with
    | .next t => .next t.countInstruction
    | .fault f => .fault f
    | .refused r => .refused r

/-- The state with an instruction word stored where `step` fetches next: the three bytes at PC (log entry 19). -/
def State.withFetchWord (s : State) (nbits w : Nat) : State := s.writeBytes s.pc (tableBytes nbits w)

end Sys2Proof.Machine
end

