-- ==== Sys2Proof/Machine/Bus.lean ====
section
/-! DEFINITION. The memory accesses of one step in their order (40_step_addressing_flags.md R95; 92_eei_decisions.md D6;
70_reset_and_hazards.md R224). No result depends on the order; the list is what a memory behind a bus would see:
log entry 18. -/

namespace Sys2Proof.Machine

/-- One access of the memory interface `read8`, `write8` (70_reset_and_hazards.md R224). -/
inductive Access where
  | read (addr : Addr)
  | write (addr : Addr) (v : Byte)
  deriving DecidableEq, Repr

/-- The instructions that read M (40_step_addressing_flags.md R87). -/
def readsOperand : Mnemonic → Bool
  | .lda | .ldx | .ldy | .and | .ora | .eor | .bit | .adc | .sbc | .cmp | .cpx | .cpy => true
  | .inc | .dec | .asl | .lsr | .rol | .ror => true
  | .sta | .stx | .sty | .tax | .tay | .tsx | .txa | .tya | .txs | .pha | .php | .pla | .plp => false
  | .inx | .iny | .dex | .dey | .jmp | .jsr | .rts | .rti => false
  | .bcc | .bcs | .bne | .beq | .bpl | .bmi | .bvc | .bvs => false
  | .clc | .sec | .cld | .sed | .cli | .sei | .clv | .brk | .nop => false

/-- How many pops an instruction makes (42_transfer_stack.md R118, R119; 46_jump_branch.md R153, R154). -/
def popCount : Mnemonic → Nat
  | .pla | .plp => 1
  | .rts => 2
  | .rti => 3
  | _ => 0

/-- Reads of the instruction bytes: opcode, then operand bytes, ascending (R95, items 1 and 2). -/
def fetchAccesses (i : Instr) (pc : Addr) : List Access :=
  (List.range i.length).map fun k => .read (pc + BitVec.ofNat 16 k)

/-- Reads of pointer bytes, low then high (R95, item 3; R83 for IND). `s` is the state after the operand fetch. -/
def pointerAccesses (i : Instr) (s : State) : List Access :=
  match i.operand with
  | .mem (.izx zp) => [.read (zeroPage (zp + s.x)), .read (zeroPage (zp + s.x + 1))]
  | .mem (.izy zp) => [.read (zeroPage zp), .read (zeroPage (zp + 1))]
  | .indirect ptr => [.read ptr, .read (indirectHighAddr Config.jmpIndPageWrap ptr)]
  | _ => []

/-- The operand read, if the instruction reads M in a memory mode (R95, item 4; R87). -/
def operandAccesses (i : Instr) (s : State) : List Access :=
  match i.operand, readsOperand i.mnemonic with
  | .mem m, true => [.read (s.ea m)]
  | _, _ => []

/-- The pops (R95, item 5). -/
def popAccesses (i : Instr) (s : State) : List Access :=
  (List.range (popCount i.mnemonic)).map fun k => .read (stackAddr (s.sp + BitVec.ofNat 8 (k + 1)))

/-- The bytes an instruction pushes, in order (42_transfer_stack.md R116, R117; 46_jump_branch.md R152;
47_flag_brk_nop.md R177). -/
def pushedBytes (i : Instr) (s : State) : List Byte :=
  match i.mnemonic with
  | .pha => [s.a]
  | .php => [pushedStatus s.sr]
  | .jsr => [hiByte (s.pc - 1), loByte (s.pc - 1)]
  | .brk => [hiByte (s.pc + 1), loByte (s.pc + 1), pushedStatus s.sr]
  | _ => []

/-- Pushes of bytes from a stack pointer on. -/
def pushAccesses : Byte → List Byte → List Access
  | _, [] => []
  | sp, v :: vs => .write (stackAddr sp) v :: pushAccesses (sp - 1) vs

/-- BRK's vector read, after its pushes (R95, item 7). -/
def vectorAccesses (i : Instr) : List Access :=
  match i.mnemonic with
  | .brk => [.read brkVector, .read (brkVector + 1)]
  | _ => []

/-- The byte a setter writes back, of its operand byte (40_step_addressing_flags.md R88). -/
def setterResult (m : Mnemonic) (s : State) (operand : Byte) : Option Byte :=
  match m with
  | .sta => some s.a
  | .stx => some s.x
  | .sty => some s.y
  | .inc => some (incResult operand)
  | .dec => some (decResult operand)
  | .asl => some (aslResult operand)
  | .lsr => some (lsrResult operand)
  | .rol => some (rolResult operand (s.flag .c))
  | .ror => some (rorResult operand (s.flag .c))
  | _ => none

/-- The write-back of a setter in a memory mode: one write (R95, item 8; R88). -/
def writeBackAccesses (i : Instr) (s : State) : List Access :=
  match i.operand with
  | .mem m =>
    match setterResult i.mnemonic s (s.load m) with
    | some v => [.write (s.ea m) v]
    | none => []
  | _ => []

/-- Every access of the step that runs `i` from `s`, in the order of R95. -/
def accesses (i : Instr) (s : State) : List Access :=
  let t := s.advancePc i.length
  fetchAccesses i s.pc ++ pointerAccesses i t ++ operandAccesses i t ++ popAccesses i t
    ++ pushAccesses t.sp (pushedBytes i t) ++ vectorAccesses i ++ writeBackAccesses i t

/-- A memory after accesses (20_memory.md R31, R32). -/
def Memory.replay (m : Memory) : List Access → Memory
  | [] => m
  | .read _ :: as => m.replay as
  | .write addr v :: as => Memory.replay (m.write addr.toNat v) as

/-- The addresses an access list writes, in order. -/
def writtenAddrs : List Access → List Addr
  | [] => []
  | .read _ :: as => writtenAddrs as
  | .write addr _ :: as => addr :: writtenAddrs as

end Sys2Proof.Machine
end

