-- ==== Sys2Proof/Machine/HostInterface.lean ====
section
/-! DEFINITION. The host's operations on the block (70_reset_and_hazards.md R204 to R213), each wholly between two steps:
memory and register accesses, change notifications, and a run with a host-chosen end (60_exceptions.md R196). -/

namespace Sys2Proof.Machine

/-! ### Observing -/

/-- What `registers()` returns: "snapshot of PC, A, X, Y, SR, SP" (70_reset_and_hazards.md R204, R206). -/
structure Registers where
  pc : Addr
  a : Byte
  x : Byte
  y : Byte
  sr : Byte
  sp : Byte
  deriving DecidableEq, Repr

/-- `registers()` (70_reset_and_hazards.md R206). -/
def State.registers (s : State) : Registers :=
  { pc := s.pc, a := s.a, x := s.x, y := s.y, sr := s.sr, sp := s.sp }

/-- `instruction_count()` (70_reset_and_hazards.md R210). -/
def State.instructionCount (s : State) : Nat := s.ic

/-- The host's `read8(addr)`: the address is masked to 16 bits (70_reset_and_hazards.md R207). -/
def State.hostRead8 (s : State) (addr : Nat) : Byte := s.readByte (BitVec.ofNat 16 addr)

/-! ### Acting -/

/-- `write_bytes(bytes, dest_addr)`: ascending, each address masked to 16 bits (70_reset_and_hazards.md R208). -/
def State.hostWriteBytes (s : State) (bytes : List Byte) (dest : Nat) : State :=
  s.writeBytes (BitVec.ofNat 16 dest) bytes

/-- `fill(start, end, v)`: every address from `start` up to but not including `stop`; nothing when `start >= stop`
(70_reset_and_hazards.md R209). DEDUCED by the spec's decision D15: log entry 13. -/
def State.hostFill (s : State) (start stop : Nat) (v : Byte) : State :=
  s.hostWriteBytes (List.replicate (stop - start) v) start

/-- A register the host may write between steps (70_reset_and_hazards.md R211), with its new value. -/
inductive RegisterWrite where
  | pc (v : Addr)
  | a (v : Byte)
  | x (v : Byte)
  | y (v : Byte)
  | sp (v : Byte)
  | sr (v : Byte)
  deriving DecidableEq, Repr

/-- A register write by the host. The write of PC is the "synthetic JMP": it pushes nothing, changes no flag, reads no
memory and does not count (70_reset_and_hazards.md R211). -/
def State.hostWriteRegister (s : State) : RegisterWrite → State
  | .pc v => s.setPc v
  | .a v => s.setA v
  | .x v => s.setX v
  | .y v => s.setY v
  | .sp v => s.setSp v
  | .sr v => s.setSr v

/-- What the host may do to the machine between steps (70_reset_and_hazards.md R213). -/
inductive HostMove where
  | writeBytes (bytes : List Byte) (dest : Nat)
  | fill (start stop : Nat) (v : Byte)
  | writeRegister (w : RegisterWrite)
  deriving DecidableEq, Repr

/-- A host move. -/
def State.hostMove (s : State) : HostMove → State
  | .writeBytes bytes dest => s.hostWriteBytes bytes dest
  | .fill start stop v => s.hostFill start stop v
  | .writeRegister w => s.hostWriteRegister w

/-! ### Subscribers -/

/-- A machine with its subscribers, by id, in subscription order (10_state.md R29 (a); 70_reset_and_hazards.md R212).
Ids are drawn from a counter and never used again. DESIGN CHOICE, safe: log entry 14. -/
structure Session where
  machine : State
  subscribers : List Nat
  nextId : Nat
  deriving DecidableEq, Repr

/-- A newly constructed machine, with no subscriber. -/
def Session.start : Session := { machine := State.reset, subscribers := [], nextId := 0 }

/-- `subscribe(cb) -> id` (70_reset_and_hazards.md R212). -/
def Session.subscribe (h : Session) : Nat × Session :=
  (h.nextId, { h with subscribers := h.subscribers ++ [h.nextId], nextId := h.nextId + 1 })

/-- `unsubscribe(id)` (70_reset_and_hazards.md R212). -/
def Session.unsubscribe (h : Session) (id : Nat) : Session :=
  { h with subscribers := h.subscribers.filter (· != id) }

/-- What `step()` reports to its caller (70_reset_and_hazards.md R205; 60_exceptions.md R180, R194). -/
inductive StepReport where
  /-- The step succeeded; these subscribers were called, in this order. -/
  | stepped (notified : List Nat)
  /-- The step faulted; nobody was called. -/
  | faulted (f : Fault)
  /-- The model has no meaning for the instruction. -/
  | refused (r : Refusal)
  deriving DecidableEq, Repr

/-- The host calls `step()`. On a fault the state stays what it was (60_exceptions.md R181), so the host can see it and
calling again faults again. Subscribers are called after a successful step only (R194). -/
def Session.step (h : Session) : StepReport × Session :=
  match Machine.step h.machine with
  | .next t => (.stepped h.subscribers, { h with machine := t })
  | .fault f => (.faulted f, h)
  | .refused r => (.refused r, h)

/-- The host makes a move between steps. -/
def Session.hostMove (h : Session) (m : HostMove) : Session := { h with machine := h.machine.hostMove m }

/-! ### Running -/

/-- Step until the host's `END_OF_RUN` predicate holds, at most `fuel` steps (60_exceptions.md R196; 92_eei_decisions.md
D9). A state at which the predicate holds is the end; a fault is never an end state. -/
def runUntil (endOfRun : State → Bool) : Nat → State → Host.Outcome State Fault Refusal
  | 0, s => .next s
  | fuel + 1, s =>
    if endOfRun s then .next s
    else match step s with
      | .next t => runUntil endOfRun fuel t
      | .fault f => .fault f
      | .refused r => .refused r

end Sys2Proof.Machine
end

