-- ==== Sys2Proof/Machine/NsfLoader.lean ====
section
/-! DEFINITION. The NSF loader and driver, a host agent outside the block (00_scope.md R3; 70_reset_and_hazards.md R214 to
R220). It acts only through the host's operations; no CPU definition uses this file: log entry 15. -/

namespace Sys2Proof.Machine

/-- The fields of the 128-byte header (70_reset_and_hazards.md R215). -/
structure NsfHeader where
  totalSongs : Byte
  startingSong : Byte
  loadAddr : Addr
  initAddr : Addr
  playAddr : Addr
  songName : List Byte
  artist : List Byte
  copyright : List Byte
  ntscSpeed : Addr
  bankInit : List Byte
  palSpeed : Addr
  mode : Byte
  extraChips : Byte
  deriving DecidableEq, Repr

/-- Why a file is not loaded. -/
inductive NsfError where
  /-- "not NSF": the magic prefix does not match (70_reset_and_hazards.md R216; 60_exceptions.md R183). -/
  | badMagic
  /-- The file is shorter than its 128-byte header. The spec does not say what happens. DESIGN CHOICE, safe: log entry 15. -/
  | shortHeader
  deriving DecidableEq, Repr

/-- The byte at an offset of a file. -/
def nsfByte (file : List Byte) (off : Nat) : Byte := file.getD off 0

/-- The little-endian word at an offset of a file. -/
def nsfWord (file : List Byte) (off : Nat) : Addr := makeWord (nsfByte file (off + 1)) (nsfByte file off)

/-- "NESM", all of the magic that is validated (70_reset_and_hazards.md R215). -/
def nsfMagic : List Byte := [0x4E, 0x45, 0x53, 0x4D]

/-- The header's fields by offset (70_reset_and_hazards.md R215). -/
def nsfHeader (file : List Byte) : Except NsfError NsfHeader :=
  if file.take 4 != nsfMagic then .error .badMagic
  else if file.length < 0x80 then .error .shortHeader
  else .ok {
    totalSongs := nsfByte file 0x06
    startingSong := nsfByte file 0x07
    loadAddr := nsfWord file 0x08
    initAddr := nsfWord file 0x0A
    playAddr := nsfWord file 0x0C
    songName := (file.drop 0x0E).take 32
    artist := (file.drop 0x2E).take 32
    copyright := (file.drop 0x4E).take 32
    ntscSpeed := nsfWord file 0x6E
    bankInit := (file.drop 0x70).take 8
    palSpeed := nsfWord file 0x78
    mode := nsfByte file 0x7A
    extraChips := nsfByte file 0x7B }

/-- The driver: a machine, the play address, and the latch "first RTS after loading" (10_state.md R29 (b), (c);
70_reset_and_hazards.md R219). -/
structure NsfDriver where
  machine : State
  header : NsfHeader
  playAddr : Addr
  awaitingFirstRts : Bool
  deriving DecidableEq, Repr

/-- Step 2 of `load`: the cleared ranges and the two APU writes, plain memory writes (70_reset_and_hazards.md R216). -/
def State.nsfClear (s : State) : State :=
  ((((s.hostFill 0x0000 0x0800 0).hostFill 0x6000 0x8000 0).hostFill 0x4000 0x4014 0).hostWriteBytes
    [0x0F] 0x4015).hostWriteBytes [0x40] 0x4017

/-- Steps 3 to 6 of `load`: X from the PAL bit, A the starting song minus 1 (modulo 256), the body copied, PC at the init
address (70_reset_and_hazards.md R217, R218, R219). -/
def State.nsfPlace (s : State) (h : NsfHeader) (body : List Byte) : State :=
  (((s.hostWriteRegister (.x (if h.mode.getLsbD 0 then 1 else 0))).hostWriteRegister
    (.a (h.startingSong - 1))).hostWriteBytes body h.loadAddr.toNat).hostWriteRegister (.pc h.initAddr)

/-- `load(bytes)`: validate before changing anything, clear, set up, arm the latch (70_reset_and_hazards.md R216 to R219).
Y, SP, SR and IC keep their values (R220). -/
def State.nsfLoad (s : State) (file : List Byte) : Except NsfError NsfDriver :=
  match nsfHeader file with
  | .error e => .error e
  | .ok h =>
    .ok { machine := s.nsfClear.nsfPlace h (file.drop 0x80), header := h, playAddr := h.playAddr, awaitingFirstRts := true }

/-- One driven step: the instruction executes normally; after the first RTS since loading the driver sets PC to the play
address (70_reset_and_hazards.md R219). With the latch off it does nothing. DESIGN CHOICE: log entry 15. -/
def NsfDriver.step (d : NsfDriver) : Host.Outcome NsfDriver Fault Refusal :=
  match Machine.step d.machine with
  | .fault f => .fault f
  | .refused r => .refused r
  | .next t =>
    match d.awaitingFirstRts, d.machine.fetch with
    | true, .ok .rts =>
      .next { d with machine := t.hostWriteRegister (.pc d.playAddr), awaitingFirstRts := false }
    | _, _ => .next { d with machine := t }

end Sys2Proof.Machine
end

