-- ==== Sys2Proof/Safety.lean ====
section
/-! DEFINITION. The terms the statements use: the invariant of every run, the machine without a program, the frame of an instruction, the operand byte M,
the encoding of a mnemonic, and which flags and registers an instruction may write. -/

namespace Sys2Proof.Machine

/-! ### The invariant -/

/-- What every state of a run from reset satisfies: the memory list has its canonical form, and bit 4 of SR is 0
(10_state.md R20, R27). -/
abbrev State.Inv (s : State) : Prop := s.mem.wf = true ∧ s.flag .b = false

/-- The next step does not fault: the byte at PC is an assigned opcode (60_exceptions.md R196). -/
abbrev State.Safe (s : State) : Prop := (dispatch (s.readByte s.pc)).isSome = true

/-- No program is loaded and control is at 0x0000: every byte outside the stack page is zero
(70_reset_and_hazards.md R202). -/
def State.NoProgram (s : State) : Prop := s.pc = 0 ∧ ∀ addr : Addr, addr.toNat / 256 ≠ 1 → s.readByte addr = 0

/-! ### Frames -/

/-- The four byte registers other than SR. -/
inductive Reg where
  | a | x | y | sp
  deriving DecidableEq, Repr

/-- The value of a byte register. -/
def State.reg (s : State) : Reg → Byte
  | .a => s.a | .x => s.x | .y => s.y | .sp => s.sp

/-- What is the same in `s` and `t`: every byte register but those in `regs`, every bit of SR but those in `flags`, every
byte of memory but those at `stored`, and the instruction counter. PC is stated apart. -/
structure Frame (regs : List Reg) (flags : List Flag) (stored : List Addr) (s t : State) : Prop where
  regs_same : ∀ r, r ∉ regs → t.reg r = s.reg r
  flags_same : ∀ f, f ∉ flags → t.flag f = s.flag f
  mem_same : ∀ addr, addr ∉ stored → t.readByte addr = s.readByte addr
  ic_same : t.ic = s.ic

/-- All eight bits of SR. -/
def allFlags : List Flag := [.n, .v, .u, .b, .d, .i, .z, .c]

/-- N and Z of `t` come from the byte `v` (40_step_addressing_flags.md R89, R90). -/
def NZFrom (v : Byte) (t : State) : Prop := t.flag .n = v.getLsbD 7 ∧ (t.flag .z = true ↔ v = 0)

/-! ### The operand byte -/

/-- M, the effective operand byte, in the modes that have one (40_step_addressing_flags.md R75, R76, R87). -/
def State.operandByte (s : State) : Operand → Option Byte
  | .accumulator => some s.a
  | .immediate imm => some imm
  | .mem m => some (s.load m)
  | .implied | .indirect _ | .relative _ => none

/-! ### Encodings -/

/-- The "Encoding" line of an instruction's rule: an opcode of `rows`, followed by any operand bytes, decodes to the
mnemonic in that opcode's mode with those operand bytes, and nothing else decodes to the mnemonic. -/
def EncodedAs (m : Mnemonic) (rows : List (Mode × Byte)) : Prop :=
  (∀ r ∈ rows, ∀ b1 b2 : Byte, ∃ i rest, decode [r.2, b1, b2] = .ok (i, rest) ∧ i.mnemonic = m ∧ i.mode = r.1 ∧
    r.2 :: (i.operand.bytes ++ rest) = [r.2, b1, b2]) ∧
  ∀ bs i rest, decode bs = .ok (i, rest) → i.mnemonic = m → ∃ op tail, bs = op :: tail ∧ (i.mode, op) ∈ rows

/-- The 105 unassigned opcode bytes of R56. -/
def unassignedOpcodes : List Byte :=
  [0x02, 0x03, 0x04, 0x07, 0x0B, 0x0C, 0x0F, 0x12, 0x13, 0x14, 0x17, 0x1A, 0x1B, 0x1C, 0x1F, 0x22, 0x23, 0x27, 0x2B, 0x2F,
   0x32, 0x33, 0x34, 0x37, 0x3A, 0x3B, 0x3C, 0x3F] ++
  [0x42, 0x43, 0x44, 0x47, 0x4B, 0x4F, 0x52, 0x53, 0x54, 0x57, 0x5A, 0x5B, 0x5C, 0x5F, 0x62, 0x63, 0x64, 0x67, 0x6B, 0x6F,
   0x72, 0x73, 0x74, 0x77, 0x7A, 0x7B, 0x7C, 0x7F] ++
  [0x80, 0x82, 0x83, 0x87, 0x89, 0x8B, 0x8F, 0x92, 0x93, 0x97, 0x9B, 0x9C, 0x9E, 0x9F, 0xA3, 0xA7, 0xAB, 0xAF, 0xB2, 0xB3,
   0xB7, 0xBB, 0xBF, 0xC2, 0xC3, 0xC7, 0xCB, 0xCF] ++
  [0xD2, 0xD3, 0xD4, 0xD7, 0xDA, 0xDB, 0xDC, 0xDF, 0xE2, 0xE3, 0xE7, 0xEB, 0xEF, 0xF2, 0xF3, 0xF4, 0xF7, 0xFA, 0xFB, 0xFC,
   0xFF]

/-! ### Shifts -/

/-- What a shift or rotate makes of the byte `m` and the old carry: its result `r` and its new carry `c`
(R146 to R149, as 9-bit numbers). -/
def Shifts (n : Mnemonic) (m : Byte) (oldC : Bool) (r : Byte) (c : Bool) : Prop :=
  (n = .asl ∧ c.toNat * 256 + r.toNat = 2 * m.toNat) ∨
  (n = .lsr ∧ r.toNat * 2 + c.toNat = m.toNat) ∨
  (n = .rol ∧ c.toNat * 256 + r.toNat = 2 * m.toNat + oldC.toNat) ∨
  (n = .ror ∧ r.toNat * 2 + c.toNat = oldC.toNat * 256 + m.toNat)

/-! ### Branches -/

/-- An instruction that adds the signed offset to PC exactly when a condition holds, and changes nothing else
(46_jump_branch.md R155). -/
def BranchesWhen (i : Instr) (rel : Byte) (cond : State → Prop) : Prop :=
  ∀ s, ∃ t, exec i s = .next t ∧
    (cond s → (t.pc.toNat : Int) = ((s.pc.toNat : Int) + rel.toInt) % 65536) ∧
    (¬ cond s → t.pc = s.pc) ∧ Frame [] [] [] s t

/-! ### What an instruction may write -/

/-- The flags an instruction declares: the "flags" line of its rule (10_state.md R16, R25). -/
def declaredFlags : Mnemonic → List Flag
  | .lda | .ldx | .ldy | .tax | .tay | .tsx | .txa | .tya | .pla | .and | .ora | .eor => [.n, .z]
  | .inc | .dec | .inx | .iny | .dex | .dey => [.n, .z]
  | .bit => [.n, .v, .z]
  | .adc | .sbc => [.n, .v, .z, .c]
  | .cmp | .cpx | .cpy | .asl | .lsr | .rol | .ror => [.n, .z, .c]
  | .plp | .rti => allFlags
  | .clc | .sec => [.c]
  | .cld | .sed => [.d]
  | .cli | .sei | .brk => [.i]
  | .clv => [.v]
  | .sta | .stx | .sty | .txs | .pha | .php | .jmp | .jsr | .rts | .nop => []
  | .bcc | .bcs | .bne | .beq | .bpl | .bmi | .bvc | .bvs => []

/-- The mnemonics that write A, X, Y or SP (10_state.md R11, R12, R13). The shifts and rotates write A in mode ACC. -/
def regWriters : Reg → List Mnemonic
  | .a => [.lda, .pla, .txa, .tya, .and, .ora, .eor, .adc, .sbc, .asl, .lsr, .rol, .ror]
  | .x => [.ldx, .tax, .tsx, .inx, .dex]
  | .y => [.ldy, .tay, .iny, .dey]
  | .sp => [.txs, .pha, .php, .pla, .plp, .jsr, .rts, .rti, .brk]

/-- The instructions that write PC (10_state.md R15). -/
def pcWriters : List Mnemonic :=
  [.jmp, .jsr, .rts, .rti, .brk, .bcc, .bcs, .bne, .beq, .bpl, .bmi, .bvc, .bvs]

end Sys2Proof.Machine
end

