-- ==== Sys2Proof/Certificates/Slice0/Obligations.lean ====
section
/-! DEFINITION. The statements for the provers. `exec` is stated from a state whose PC already points past the instruction's
bytes (00_scope.md R7); `StepRunsTheDecodedInstruction` joins it to `step`. Statements name an instruction by mnemonic:
`i.mnemonic = .lda` covers the constructor of every row of spec/opcode_table.json with that mnemonic.
The opcode bytes in `EncodedAs` and `unassignedOpcodes` are those of the spec's rules; the spec itself marks all of them but
0x00, 0x18 and 0xA9 as general knowledge (30_encoding.md R55): log entry 8. -/

open Sys2Proof Sys2Proof.Machine

/-! ### Encoding -/

/-- Decoding the encoding of a well-formed instruction gives it back, whatever bytes follow (R50 to R55, R59). -/
def Obligations.DecodeOfEncodeIsTheInstruction : Prop :=
  ∀ (i : Instr) (rest : List Byte), i.WellFormed → decode (encode i ++ rest) = .ok (i, rest)

/-- What decodes is an encoding: the bytes used are the instruction's own, as many as its length, and it is well formed
(R50 to R54). -/
def Obligations.DecodedBytesAreTheEncoding : Prop :=
  ∀ (bs : List Byte) (i : Instr) (rest : List Byte), decode bs = .ok (i, rest) →
    bs = encode i ++ rest ∧ (encode i).length = i.length ∧ i.WellFormed

/-- R55: there is one opcode byte per (mnemonic, mode) pair. -/
def Obligations.OneOpcodePerMnemonicAndMode : Prop :=
  ∀ (op op' : Byte) (bs bs' rest rest' : List Byte) (i i' : Instr),
    decode (op :: bs) = .ok (i, rest) → decode (op' :: bs') = .ok (i', rest') →
    i.mnemonic = i'.mnemonic → i.mode = i'.mode → op = op'

/-- R56 and R57: a listed byte decodes to nothing and makes the step fault; any other byte decodes with any operand bytes. -/
def Obligations.EveryOpcodeByteIsAnInstructionOrAFault : Prop :=
  ∀ op : Byte,
    (op ∈ unassignedOpcodes → (∀ rest, decode (op :: rest) = .error (.unassignedOpcode op)) ∧
      ∀ s : State, s.readByte s.pc = op → step s = .fault (.unknownOpcode op s.pc)) ∧
    (op ∉ unassignedOpcodes → ∀ b1 b2 : Byte, ∃ i rest, decode [op, b1, b2] = .ok (i, rest))

/-- Words written out from the spec: CLC and LDA #$FF (R55), BRK (R55), LDA ABX (R98), JSR (R152), JMP ($0042) (R151),
BNE -9 (R158), LDX $F0,Y (R59), STA ($20),Y (R59), ASL A (R146). -/
def Obligations.SampleWordsDecode : Prop :=
  decodeTableWord 8 0x18 = some .clc ∧ decodeTableWord 16 0xFFA9 = some (.ldaImm 0xFF) ∧
  decodeTableWord 8 0x00 = some .brk ∧ decodeTableWord 24 0x12FEBD = some (.ldaAbx 0x12FE) ∧
  decodeTableWord 24 0x060920 = some (.jsrAbs 0x0609) ∧ decodeTableWord 24 0x00426C = some (.jmpInd 0x0042) ∧
  decodeTableWord 16 0xF7D0 = some (.bne 0xF7) ∧ decodeTableWord 16 0xF0B6 = some (.ldxZpy 0xF0) ∧
  decodeTableWord 16 0x2091 = some (.staIzy 0x20) ∧ decodeTableWord 8 0x0A = some .aslAcc ∧
  decodeTableWord 8 0x02 = none

/-! ### The step -/

/-- When the bytes of `i` lie at PC, `step` moves PC past them, runs `exec i`, and counts (R70, R71, R73, R94). -/
def Obligations.StepRunsTheDecodedInstruction : Prop :=
  ∀ (s : State) (i : Instr), i.WellFormed →
    (∀ k, (h : k < (encode i).length) → s.readByte (s.pc + BitVec.ofNat 16 k) = (encode i)[k]) →
    step s = match exec i { s with pc := s.pc + BitVec.ofNat 16 i.length } with
      | .next t => .next { t with ic := t.ic + 1 }
      | .fault f => .fault f
      | .refused r => .refused r

/-- R180: the one fault is `UnknownOpcode(op, addr)`, it occurs exactly when the byte at PC is unassigned, and it carries
that byte and its address. -/
def Obligations.TheOnlyFaultIsUnknownOpcode : Prop :=
  ∀ (s : State) (f : Fault),
    step s = .fault f ↔ (s.readByte s.pc ∈ unassignedOpcodes ∧ f = .unknownOpcode (s.readByte s.pc) s.pc)

/-- R181 with R194 and R205: when a session's step faults, its state is what it was and nobody is notified, and the same
step faults again; when it succeeds, every subscriber is notified in subscription order. -/
def Obligations.FaultKeepsTheStateAndRepeats : Prop :=
  ∀ h : Session,
    (∀ f h', h.step = (.faulted f, h') → h' = h ∧ h'.step = (.faulted f, h)) ∧
    (∀ ids h', h.step = (.stepped ids, h') →
      ids = h.subscribers ∧ h'.subscribers = h.subscribers ∧ step h.machine = .next h'.machine)

/-- R96, R196: from every state whose next opcode is assigned, a step has a next state; no step is ever refused. -/
def Obligations.AssignedOpcodesAlwaysStep : Prop :=
  ∀ s : State,
    (s.readByte s.pc ∉ unassignedOpcodes → ∃ t, step s = .next t) ∧ ∀ r, step s ≠ .refused r

/-- R94: every step that does not fault counts one. -/
def Obligations.EveryStepCountsOne : Prop :=
  ∀ s t : State, step s = .next t → t.ic = s.ic + 1

/-- R15: an instruction that does not transfer control advances PC by its length, modulo 65,536. -/
def Obligations.PcAdvancesByTheLength : Prop :=
  ∀ (s t : State) (i : Instr), s.fetch = .ok i → i.mnemonic ∉ pcWriters → step s = .next t →
    t.pc.toNat = (s.pc.toNat + i.length) % 65536

/-! ### Reset and invariants -/

/-- R26, R200: the state after construction. -/
def Obligations.ResetState : Prop :=
  State.reset.a = 0x00 ∧ State.reset.x = 0x00 ∧ State.reset.y = 0x00 ∧ State.reset.sp = 0xFF ∧ State.reset.sr = 0x00 ∧
    State.reset.pc = 0x0000 ∧ (∀ addr, State.reset.readByte addr = 0x00) ∧ State.reset.ic = 0

/-- The invariant holds at reset (R20, R26, R27). -/
def Obligations.InvariantHoldsAtReset : Prop := State.reset.Inv

/-- Every step keeps the invariant: the memory list stays canonical and inside the address space, and bit 4 of SR stays 0
(R20, R27). -/
def Obligations.StepKeepsTheInvariant : Prop :=
  ∀ s t : State, s.Inv → step s = .next t → t.Inv

/-- R202, R177: a machine with no program executes BRK at 0x0000 for ever. From every state with PC 0 and zero bytes outside
the stack page a step is BRK, keeps that condition, lowers SP by three and sets I; the reset state meets the condition; so
after any number of steps from reset the machine still stands there. That the count is n after n steps rests on the model's
IC: a natural number (log entry 2), 0 at reset by the spec's decision D8 (log entry 3). -/
def Obligations.MachineWithNoProgramRepeatsBrk : Prop :=
  (∀ s : State, s.NoProgram → s.fetch = .ok .brk ∧ ∃ t, step s = .next t ∧ t.NoProgram ∧ t.sp = s.sp - 3 ∧
    t.flag .i = true ∧ t.a = s.a ∧ t.x = s.x ∧ t.y = s.y ∧ t.ic = s.ic + 1) ∧
  State.reset.NoProgram ∧
  ∀ n : Nat, ∃ t : State, Sys2Proof.core.run n State.reset = .next t ∧ t.fetch = .ok .brk ∧ t.pc = 0 ∧ t.ic = n ∧
    (t.sp.toNat + 3 * n) % 256 = 255 ∧ (t.flag .i = true ↔ 0 < n) ∧ t.a = 0 ∧ t.x = 0 ∧ t.y = 0

/-! ### Memory and stack -/

/-- R31, R32: a store changes that one byte and nothing else, at every address. -/
def Obligations.StoreChangesOneByte : Prop :=
  ∀ (s : State) (addr : Addr) (v : Byte),
    (s.writeByte addr v).readByte addr = v ∧ (s.writeByte addr v).pc = s.pc ∧ (s.writeByte addr v).sr = s.sr ∧
    Frame [] [] [addr] s (s.writeByte addr v)

/-- R34, R35: a 16-bit value lies low byte first; the second byte's address wraps at 65,536, and a pointer in page zero
stays in page zero. -/
def Obligations.WordsAreLittleEndian : Prop :=
  ∀ (s : State) (addr : Addr) (p : Byte),
    (s.read16 addr).toNat = (s.readByte addr).toNat + 256 * (s.readByte (BitVec.ofNat 16 ((addr.toNat + 1) % 65536))).toNat ∧
    (s.read16ZP p).toNat = (s.readByte (BitVec.ofNat 16 p.toNat)).toNat +
      256 * (s.readByte (BitVec.ofNat 16 ((p.toNat + 1) % 256))).toNat

/-- R40: a push stores at 0x0100 | SP and then decrements SP modulo 256. -/
def Obligations.PushStoresThenDecrements : Prop :=
  ∀ (s : State) (v : Byte),
    (s.push v).readByte (BitVec.ofNat 16 (0x0100 + s.sp.toNat)) = v ∧
    (s.push v).sp.toNat = (s.sp.toNat + 255) % 256 ∧ (s.push v).pc = s.pc ∧
    Frame [.sp] [] [BitVec.ofNat 16 (0x0100 + s.sp.toNat)] s (s.push v)

/-- R41: a pop increments SP modulo 256 and then reads at 0x0100 | SP; the byte stays. -/
def Obligations.PopIncrementsThenLoads : Prop :=
  ∀ s : State,
    s.popped.sp.toNat = (s.sp.toNat + 1) % 256 ∧
    s.popValue = s.readByte (BitVec.ofNat 16 (0x0100 + (s.sp.toNat + 1) % 256)) ∧
    s.popped.pc = s.pc ∧ Frame [.sp] [] [] s s.popped

/-- R42: the stack wraps silently, without a flag. A push at SP = 0x00 stores at 0x0100 and leaves 0xFF; a pop at 0xFF reads 0x0100 and
leaves 0x00; pushing up to 256 bytes and popping as many yields them reversed; after 256 pushes SP is back, so that the
257th overwrites the first. -/
def Obligations.StackWrapsAndReverses : Prop :=
  ∀ s : State,
    (s.sp = 0x00 → ∀ v, (s.push v).readByte 0x0100 = v ∧ (s.push v).sp = 0xFF ∧ (s.push v).sr = s.sr) ∧
    (s.sp = 0xFF → s.popValue = s.readByte 0x0100 ∧ s.popped.sp = 0x00 ∧ s.popped.sr = s.sr) ∧
    (∀ vs : List Byte, vs.length ≤ 256 → (s.pushAll vs).popValues vs.length = vs.reverse) ∧
    (∀ vs : List Byte, vs.length = 256 → (s.pushAll vs).sp = s.sp ∧
      ∀ v, ((s.pushAll vs).push v).readByte (stackAddr s.sp) = v)

/-! ### Addressing modes -/

/-- R77 to R82: zero-page indexing wraps in page zero, absolute indexing is a 16-bit add, and M is the byte at EA. -/
def Obligations.DirectEffectiveAddresses : Prop :=
  ∀ (s : State) (zp : Byte) (addr : Addr),
    (s.ea (.zp zp)).toNat = zp.toNat ∧
    (s.ea (.zpx zp)).toNat = (zp.toNat + s.x.toNat) % 256 ∧
    (s.ea (.zpy zp)).toNat = (zp.toNat + s.y.toNat) % 256 ∧
    s.ea (.abs addr) = addr ∧
    (s.ea (.abx addr)).toNat = (addr.toNat + s.x.toNat) % 65536 ∧
    (s.ea (.aby addr)).toNat = (addr.toNat + s.y.toNat) % 65536 ∧
    ∀ m : MemOperand, s.operandByte (.mem m) = some (s.readByte (s.ea m))

/-- R84 and R85: X is added to the pointer's location, Y to the pointer; the pointer's bytes lie in page zero. -/
def Obligations.IndirectEffectiveAddresses : Prop :=
  ∀ (s : State) (zp : Byte),
    (s.ea (.izx zp)).toNat =
      (s.readByte (BitVec.ofNat 16 ((zp.toNat + s.x.toNat) % 256))).toNat +
        256 * (s.readByte (BitVec.ofNat 16 ((zp.toNat + s.x.toNat + 1) % 256))).toNat ∧
    (s.ea (.izy zp)).toNat =
      ((s.readByte (BitVec.ofNat 16 zp.toNat)).toNat +
        256 * (s.readByte (BitVec.ofNat 16 ((zp.toNat + 1) % 256))).toNat + s.y.toNat) % 65536

/-! ### Loads and stores -/

/-- R100, R101, R102: LDA, LDX, LDY load M into their register and set N and Z from it. -/
def Obligations.LoadsSetTheirRegister : Prop :=
  EncodedAs .lda [(.imm, 0xA9), (.zp, 0xA5), (.zpx, 0xB5), (.abs, 0xAD), (.abx, 0xBD), (.aby, 0xB9), (.izx, 0xA1), (.izy, 0xB1)] ∧
  EncodedAs .ldx [(.imm, 0xA2), (.zp, 0xA6), (.zpy, 0xB6), (.abs, 0xAE), (.aby, 0xBE)] ∧
  EncodedAs .ldy [(.imm, 0xA0), (.zp, 0xA4), (.zpx, 0xB4), (.abs, 0xAC), (.abx, 0xBC)] ∧
  ∀ (i : Instr) (s : State),
    (i.mnemonic = .lda → ∃ m t, s.operandByte i.operand = some m ∧ exec i s = .next t ∧ t.a = m ∧ NZFrom m t ∧
      t.pc = s.pc ∧ Frame [.a] [.n, .z] [] s t) ∧
    (i.mnemonic = .ldx → ∃ m t, s.operandByte i.operand = some m ∧ exec i s = .next t ∧ t.x = m ∧ NZFrom m t ∧
      t.pc = s.pc ∧ Frame [.x] [.n, .z] [] s t) ∧
    (i.mnemonic = .ldy → ∃ m t, s.operandByte i.operand = some m ∧ exec i s = .next t ∧ t.y = m ∧ NZFrom m t ∧
      t.pc = s.pc ∧ Frame [.y] [.n, .z] [] s t)

/-- R103, R104, R105: STA, STX, STY store their register at EA, do not read the byte there, and write no flag. -/
def Obligations.StoresWriteTheEffectiveAddress : Prop :=
  EncodedAs .sta [(.zp, 0x85), (.zpx, 0x95), (.abs, 0x8D), (.abx, 0x9D), (.aby, 0x99), (.izx, 0x81), (.izy, 0x91)] ∧
  EncodedAs .stx [(.zp, 0x86), (.zpy, 0x96), (.abs, 0x8E)] ∧
  EncodedAs .sty [(.zp, 0x84), (.zpx, 0x94), (.abs, 0x8C)] ∧
  ∀ (i : Instr) (s : State) (r : Reg),
    (i.mnemonic = .sta ∧ r = .a ∨ i.mnemonic = .stx ∧ r = .x ∨ i.mnemonic = .sty ∧ r = .y) →
    ∃ m t, i.operand = .mem m ∧ exec i s = .next t ∧ t.readByte (s.ea m) = s.reg r ∧ t.pc = s.pc ∧
      Frame [] [] [s.ea m] s t ∧ operandAccesses i s = [] ∧ writeBackAccesses i s = [.write (s.ea m) (s.reg r)]

/-! ### Transfers and stack -/

/-- R110 to R114: TAX, TAY, TSX, TXA, TYA copy a register and set N and Z from it. -/
def Obligations.TransfersCopyAndSetNZ : Prop :=
  EncodedAs .tax [(.imp, 0xAA)] ∧ EncodedAs .tay [(.imp, 0xA8)] ∧ EncodedAs .tsx [(.imp, 0xBA)] ∧
  EncodedAs .txa [(.imp, 0x8A)] ∧ EncodedAs .tya [(.imp, 0x98)] ∧
  ∀ (i : Instr) (s : State) (source dest : Reg),
    (i, source, dest) ∈ [(Instr.tax, Reg.a, Reg.x), (.tay, .a, .y), (.tsx, .sp, .x), (.txa, .x, .a), (.tya, .y, .a)] →
    ∃ t, exec i s = .next t ∧ t.reg dest = s.reg source ∧ NZFrom (s.reg source) t ∧ t.pc = s.pc ∧
      Frame [dest] [.n, .z] [] s t

/-- R115: TXS copies X to SP and writes no flag. -/
def Obligations.TxsCopiesXToSp : Prop :=
  EncodedAs .txs [(.imp, 0x9A)] ∧
  ∀ s : State, ∃ t, exec .txs s = .next t ∧ t.sp = s.x ∧ t.pc = s.pc ∧ Frame [.sp] [] [] s t

/-- R116, R117: PHA pushes A; PHP pushes SR with bit 4 set and leaves SR alone. -/
def Obligations.PhaAndPhpPush : Prop :=
  EncodedAs .pha [(.imp, 0x48)] ∧ EncodedAs .php [(.imp, 0x08)] ∧
  ∀ (s : State) (i : Instr) (v : Byte),
    (i = .pha ∧ v = s.a ∨ i = .php ∧ v = s.sr ||| 0x10) →
    ∃ t, exec i s = .next t ∧ t.readByte (stackAddr s.sp) = v ∧ t.sp = s.sp - 1 ∧ t.pc = s.pc ∧
      Frame [.sp] [] [stackAddr s.sp] s t

/-- R118: PLA pops into A and sets N and Z. -/
def Obligations.PlaPopsIntoA : Prop :=
  EncodedAs .pla [(.imp, 0x68)] ∧
  ∀ s : State, ∃ t, exec .pla s = .next t ∧ t.a = s.readByte (stackAddr (s.sp + 1)) ∧ t.sp = s.sp + 1 ∧ NZFrom t.a t ∧
    t.pc = s.pc ∧ Frame [.a, .sp] [.n, .z] [] s t

/-- R119: PLP pops into SR with bit 4 cleared. -/
def Obligations.PlpLoadsStatusWithoutB : Prop :=
  EncodedAs .plp [(.imp, 0x28)] ∧
  ∀ s : State, ∃ t, exec .plp s = .next t ∧ t.sr = s.readByte (stackAddr (s.sp + 1)) &&& 0xEF ∧ t.flag .b = false ∧
    (∀ f, f ≠ .b → t.flag f = f.get (s.readByte (stackAddr (s.sp + 1)))) ∧ t.sp = s.sp + 1 ∧ t.pc = s.pc ∧
    Frame [.sp] allFlags [] s t

/-- R119: PHP then PLP leaves SR as it was (bit 4 being 0) and SP where it was. -/
def Obligations.PhpThenPlpRestoresStatus : Prop :=
  ∀ s : State, s.flag .b = false → ∃ t u, exec .php s = .next t ∧ exec .plp t = .next u ∧ u.sr = s.sr ∧ u.sp = s.sp

/-! ### Logical and bit test -/

/-- R120, R121, R122: AND, ORA, EOR combine A with M bit by bit and set N and Z. -/
def Obligations.LogicalOperationsOnA : Prop :=
  EncodedAs .and [(.imm, 0x29), (.zp, 0x25), (.zpx, 0x35), (.abs, 0x2D), (.abx, 0x3D), (.aby, 0x39), (.izx, 0x21), (.izy, 0x31)] ∧
  EncodedAs .ora [(.imm, 0x09), (.zp, 0x05), (.zpx, 0x15), (.abs, 0x0D), (.abx, 0x1D), (.aby, 0x19), (.izx, 0x01), (.izy, 0x11)] ∧
  EncodedAs .eor [(.imm, 0x49), (.zp, 0x45), (.zpx, 0x55), (.abs, 0x4D), (.abx, 0x5D), (.aby, 0x59), (.izx, 0x41), (.izy, 0x51)] ∧
  ∀ (i : Instr) (s : State) (op : Bool → Bool → Bool),
    (i.mnemonic = .and ∧ op = and ∨ i.mnemonic = .ora ∧ op = or ∨ i.mnemonic = .eor ∧ op = xor) →
    ∃ m t, s.operandByte i.operand = some m ∧ exec i s = .next t ∧
      (∀ k, k < 8 → t.a.getLsbD k = op (s.a.getLsbD k) (m.getLsbD k)) ∧ NZFrom t.a t ∧ t.pc = s.pc ∧
      Frame [.a] [.n, .z] [] s t

/-- R123: BIT sets Z from A & M, N and V from bits 7 and 6 of M, and changes no register. -/
def Obligations.BitTestsWithoutChangingA : Prop :=
  EncodedAs .bit [(.zp, 0x24), (.abs, 0x2C)] ∧
  ∀ (i : Instr) (s : State), i.mnemonic = .bit →
    ∃ m t, s.operandByte i.operand = some m ∧ exec i s = .next t ∧ (t.flag .z = true ↔ s.a &&& m = 0) ∧
      t.flag .n = m.getLsbD 7 ∧ t.flag .v = m.getLsbD 6 ∧ t.pc = s.pc ∧ Frame [] [.n, .v, .z] [] s t

/-! ### Arithmetic -/

/-- R130: ADC. -/
def Obligations.AdcAddsWithCarry : Prop :=
  EncodedAs .adc [(.imm, 0x69), (.zp, 0x65), (.zpx, 0x75), (.abs, 0x6D), (.abx, 0x7D), (.aby, 0x79), (.izx, 0x61), (.izy, 0x71)] ∧
  ∀ (i : Instr) (s : State), i.mnemonic = .adc →
    ∃ m t, s.operandByte i.operand = some m ∧ exec i s = .next t ∧
      t.a.toNat = (s.a.toNat + m.toNat + (s.flag .c).toNat) % 256 ∧
      (t.flag .c = true ↔ 0xFF < s.a.toNat + m.toNat + (s.flag .c).toNat) ∧
      (t.flag .v = true ↔ s.a.getLsbD 7 = m.getLsbD 7 ∧ t.a.getLsbD 7 ≠ s.a.getLsbD 7) ∧
      NZFrom t.a t ∧ t.pc = s.pc ∧ Frame [.a] [.n, .v, .z, .c] [] s t

/-- R131: SBC, and its equal formulation as ADC of the complemented operand. -/
def Obligations.SbcSubtractsWithBorrow : Prop :=
  EncodedAs .sbc [(.imm, 0xE9), (.zp, 0xE5), (.zpx, 0xF5), (.abs, 0xED), (.abx, 0xFD), (.aby, 0xF9), (.izx, 0xE1), (.izy, 0xF1)] ∧
  (∀ (i : Instr) (s : State), i.mnemonic = .sbc →
    ∃ m t, s.operandByte i.operand = some m ∧ exec i s = .next t ∧
      (t.a.toNat : Int) = ((s.a.toNat : Int) - m.toNat - (1 - (s.flag .c).toNat)) % 256 ∧
      (t.flag .c = true ↔ 0 ≤ (s.a.toNat : Int) - m.toNat - (1 - (s.flag .c).toNat)) ∧
      (t.flag .v = true ↔ s.a.getLsbD 7 ≠ m.getLsbD 7 ∧ t.a.getLsbD 7 ≠ s.a.getLsbD 7) ∧
      NZFrom t.a t ∧ t.pc = s.pc ∧ Frame [.a] [.n, .v, .z, .c] [] s t) ∧
  ∀ (s : State) (m : Byte), exec (.sbcImm m) s = exec (.adcImm (m ^^^ 0xFF)) s

/-- R135 (a): V is set by ADC and SBC exactly when the signed sum or difference lies outside -128..127. -/
def Obligations.OverflowMeansSignedOutOfRange : Prop :=
  ∀ (i : Instr) (s : State),
    (i.mnemonic = .adc → ∃ m t, s.operandByte i.operand = some m ∧ exec i s = .next t ∧
      (t.flag .v = true ↔ ¬ (-128 ≤ s.a.toInt + m.toInt + (s.flag .c).toNat ∧
        s.a.toInt + m.toInt + (s.flag .c).toNat ≤ 127))) ∧
    (i.mnemonic = .sbc → ∃ m t, s.operandByte i.operand = some m ∧ exec i s = .next t ∧
      (t.flag .v = true ↔ ¬ (-128 ≤ s.a.toInt - m.toInt - (1 - (s.flag .c).toNat) ∧
        s.a.toInt - m.toInt - (1 - (s.flag .c).toNat) ≤ 127)))

/-- R132, R133, R134: CMP, CPX, CPY set C, N and Z and leave the register, V and the carry-in out of it. -/
def Obligations.ComparesSetFlagsOnly : Prop :=
  EncodedAs .cmp [(.imm, 0xC9), (.zp, 0xC5), (.zpx, 0xD5), (.abs, 0xCD), (.abx, 0xDD), (.aby, 0xD9), (.izx, 0xC1), (.izy, 0xD1)] ∧
  EncodedAs .cpx [(.imm, 0xE0), (.zp, 0xE4), (.abs, 0xEC)] ∧ EncodedAs .cpy [(.imm, 0xC0), (.zp, 0xC4), (.abs, 0xCC)] ∧
  ∀ (i : Instr) (s : State) (r : Reg),
    (i.mnemonic = .cmp ∧ r = .a ∨ i.mnemonic = .cpx ∧ r = .x ∨ i.mnemonic = .cpy ∧ r = .y) →
    ∃ m t, s.operandByte i.operand = some m ∧ exec i s = .next t ∧ (t.flag .c = true ↔ m.toNat ≤ (s.reg r).toNat) ∧
      (∃ after : Byte, (after.toNat : Int) = (((s.reg r).toNat : Int) - m.toNat) % 256 ∧ NZFrom after t) ∧
      t.pc = s.pc ∧ Frame [] [.n, .z, .c] [] s t

/-! ### Increments, decrements, shifts, rotates -/

/-- R140, R141: INC and DEC read EA once, write it once, wrap modulo 256, and set N and Z only. -/
def Obligations.IncAndDecModifyMemory : Prop :=
  EncodedAs .inc [(.zp, 0xE6), (.zpx, 0xF6), (.abs, 0xEE), (.abx, 0xFE)] ∧
  EncodedAs .dec [(.zp, 0xC6), (.zpx, 0xD6), (.abs, 0xCE), (.abx, 0xDE)] ∧
  ∀ (i : Instr) (s : State) (d : Nat),
    (i.mnemonic = .inc ∧ d = 1 ∨ i.mnemonic = .dec ∧ d = 255) →
    ∃ m t, i.operand = .mem m ∧ exec i s = .next t ∧
      (t.readByte (s.ea m)).toNat = ((s.readByte (s.ea m)).toNat + d) % 256 ∧ NZFrom (t.readByte (s.ea m)) t ∧
      t.pc = s.pc ∧ Frame [] [.n, .z] [s.ea m] s t ∧ operandAccesses i s = [.read (s.ea m)] ∧
      writeBackAccesses i s = [.write (s.ea m) (t.readByte (s.ea m))]

/-- R142 to R145: INX, INY, DEX, DEY wrap modulo 256 and set N and Z only. -/
def Obligations.IndexRegistersCount : Prop :=
  EncodedAs .inx [(.imp, 0xE8)] ∧ EncodedAs .iny [(.imp, 0xC8)] ∧ EncodedAs .dex [(.imp, 0xCA)] ∧
  EncodedAs .dey [(.imp, 0x88)] ∧
  ∀ (i : Instr) (s : State) (r : Reg) (d : Nat),
    (i, r, d) ∈ [(Instr.inx, Reg.x, 1), (.iny, .y, 1), (.dex, .x, 255), (.dey, .y, 255)] →
    ∃ t, exec i s = .next t ∧ (t.reg r).toNat = ((s.reg r).toNat + d) % 256 ∧ NZFrom (t.reg r) t ∧ t.pc = s.pc ∧
      Frame [r] [.n, .z] [] s t

/-- R146 to R149: ASL, LSR, ROL, ROR set C from the bit shifted out and N and Z from the result. In a memory mode they
read EA once and write the result there once; in mode ACC the operand and the destination are A and no memory is touched. -/
def Obligations.ShiftsAndRotates : Prop :=
  EncodedAs .asl [(.acc, 0x0A), (.zp, 0x06), (.zpx, 0x16), (.abs, 0x0E), (.abx, 0x1E)] ∧
  EncodedAs .lsr [(.acc, 0x4A), (.zp, 0x46), (.zpx, 0x56), (.abs, 0x4E), (.abx, 0x5E)] ∧
  EncodedAs .rol [(.acc, 0x2A), (.zp, 0x26), (.zpx, 0x36), (.abs, 0x2E), (.abx, 0x3E)] ∧
  EncodedAs .ror [(.acc, 0x6A), (.zp, 0x66), (.zpx, 0x76), (.abs, 0x6E), (.abx, 0x7E)] ∧
  ∀ (i : Instr) (s : State), i.mnemonic ∈ [Mnemonic.asl, .lsr, .rol, .ror] →
    (∀ m, i.operand = .mem m → ∃ t, exec i s = .next t ∧
      Shifts i.mnemonic (s.readByte (s.ea m)) (s.flag .c) (t.readByte (s.ea m)) (t.flag .c) ∧
      NZFrom (t.readByte (s.ea m)) t ∧ t.pc = s.pc ∧ Frame [] [.n, .z, .c] [s.ea m] s t ∧
      operandAccesses i s = [.read (s.ea m)] ∧ writeBackAccesses i s = [.write (s.ea m) (t.readByte (s.ea m))]) ∧
    (i.mode = .acc → ∃ t, exec i s = .next t ∧ Shifts i.mnemonic s.a (s.flag .c) t.a (t.flag .c) ∧ NZFrom t.a t ∧
      t.pc = s.pc ∧ Frame [.a] [.n, .z, .c] [] s t ∧ operandAccesses i s = [] ∧ writeBackAccesses i s = []) ∧
    (i.mode = .acc ∨ ∃ m, i.operand = .mem m)

/-! ### Jumps, calls, returns, branches -/

/-- R150: JMP absolute goes to its operand and changes nothing else. -/
def Obligations.JmpAbsoluteGoesToItsOperand : Prop :=
  EncodedAs .jmp [(.abs, 0x4C), (.ind, 0x6C)] ∧
  ∀ (s : State) (addr : Addr), ∃ t, exec (.jmpAbs addr) s = .next t ∧ t.pc = addr ∧ Frame [] [] [] s t

/-- R151, R83: JMP indirect goes to the word at its pointer and changes nothing else. `JMP_IND_PAGE_WRAP` is open (D1): the
model's `Config.jmpIndPageWrap` has no value (log entry 1), and the target is stated for either value. -/
def Obligations.JmpIndirectReadsItsTarget : Prop :=
  EncodedAs .jmp [(.abs, 0x4C), (.ind, 0x6C)] ∧
  ∀ (s : State) (ptr : Addr),
    (∃ t, exec (.jmpInd ptr) s = .next t ∧ t.pc = s.indirectTarget Config.jmpIndPageWrap ptr ∧ Frame [] [] [] s t) ∧
    (s.indirectTarget false ptr).toNat =
      (s.readByte ptr).toNat + 256 * (s.readByte (BitVec.ofNat 16 ((ptr.toNat + 1) % 65536))).toNat ∧
    (s.indirectTarget true ptr).toNat =
      (s.readByte ptr).toNat + 256 * (s.readByte ((ptr &&& 0xFF00) ||| ((ptr + 1) &&& 0x00FF))).toNat

/-- R152: JSR pushes the address of its last byte, high byte first, and goes to its operand. PC is past the instruction, so
`PC - 1` is that address. -/
def Obligations.JsrPushesItsLastAddress : Prop :=
  EncodedAs .jsr [(.abs, 0x20)] ∧
  ∀ (s : State) (addr : Addr), ∃ t, exec (.jsrAbs addr) s = .next t ∧ t.pc = addr ∧ t.sp = s.sp - 2 ∧
    (t.readByte (stackAddr s.sp)).toNat = (s.pc.toNat + 65535) % 65536 / 256 ∧
    (t.readByte (stackAddr (s.sp - 1))).toNat = (s.pc.toNat + 65535) % 256 ∧
    Frame [.sp] [] [stackAddr s.sp, stackAddr (s.sp - 1)] s t

/-- R153: RTS pops low, then high, and goes to one past that address. -/
def Obligations.RtsReturnsPastThePoppedAddress : Prop :=
  EncodedAs .rts [(.imp, 0x60)] ∧
  ∀ s : State, ∃ t, exec .rts s = .next t ∧ t.sp = s.sp + 2 ∧
    t.pc.toNat = ((s.readByte (stackAddr (s.sp + 1))).toNat + 256 * (s.readByte (stackAddr (s.sp + 2))).toNat + 1) % 65536 ∧
    Frame [.sp] [] [] s t

/-- R164: RTS after JSR returns to the byte after the JSR, with SP where it was. -/
def Obligations.RtsUndoesJsr : Prop :=
  ∀ (s : State) (addr : Addr), ∃ t u, exec (.jsrAbs addr) s = .next t ∧ exec .rts t = .next u ∧ u.pc = s.pc ∧ u.sp = s.sp

/-- R154: RTI pops the status with bit 4 cleared, then PC low and high, with nothing added. -/
def Obligations.RtiRestoresStatusAndPc : Prop :=
  EncodedAs .rti [(.imp, 0x40)] ∧
  ∀ s : State, ∃ t, exec .rti s = .next t ∧ t.sp = s.sp + 3 ∧
    t.sr = s.readByte (stackAddr (s.sp + 1)) &&& 0xEF ∧
    t.pc.toNat = (s.readByte (stackAddr (s.sp + 2))).toNat + 256 * (s.readByte (stackAddr (s.sp + 3))).toNat ∧
    Frame [.sp] allFlags [] s t

/-- R155 to R163: each branch tests its flag with its polarity and adds the signed offset to PC. -/
def Obligations.BranchesTestTheirFlag : Prop :=
  EncodedAs .bcc [(.rel, 0x90)] ∧ EncodedAs .bcs [(.rel, 0xB0)] ∧ EncodedAs .bne [(.rel, 0xD0)] ∧
  EncodedAs .beq [(.rel, 0xF0)] ∧ EncodedAs .bpl [(.rel, 0x10)] ∧ EncodedAs .bmi [(.rel, 0x30)] ∧
  EncodedAs .bvc [(.rel, 0x50)] ∧ EncodedAs .bvs [(.rel, 0x70)] ∧
  ∀ rel : Byte,
    BranchesWhen (.bcc rel) rel (fun s => s.flag .c = false) ∧ BranchesWhen (.bcs rel) rel (fun s => s.flag .c = true) ∧
    BranchesWhen (.bne rel) rel (fun s => s.flag .z = false) ∧ BranchesWhen (.beq rel) rel (fun s => s.flag .z = true) ∧
    BranchesWhen (.bpl rel) rel (fun s => s.flag .n = false) ∧ BranchesWhen (.bmi rel) rel (fun s => s.flag .n = true) ∧
    BranchesWhen (.bvc rel) rel (fun s => s.flag .v = false) ∧ BranchesWhen (.bvs rel) rel (fun s => s.flag .v = true)

/-! ### Flag instructions, BRK, NOP -/

/-- R170 to R176: CLC, SEC, CLD, SED, CLI, SEI, CLV write one flag and nothing else. -/
def Obligations.FlagInstructionsWriteOneFlag : Prop :=
  EncodedAs .clc [(.imp, 0x18)] ∧ EncodedAs .sec [(.imp, 0x38)] ∧ EncodedAs .cld [(.imp, 0xD8)] ∧
  EncodedAs .sed [(.imp, 0xF8)] ∧ EncodedAs .cli [(.imp, 0x58)] ∧ EncodedAs .sei [(.imp, 0x78)] ∧
  EncodedAs .clv [(.imp, 0xB8)] ∧
  ∀ (i : Instr) (s : State) (f : Flag) (value : Bool),
    (i, f, value) ∈ [(Instr.clc, Flag.c, false), (.sec, .c, true), (.cld, .d, false), (.sed, .d, true),
      (.cli, .i, false), (.sei, .i, true), (.clv, .v, false)] →
    ∃ t, exec i s = .next t ∧ t.flag f = value ∧ t.pc = s.pc ∧ Frame [] [f] [] s t

/-- R177, R184: BRK pushes PC plus one (PC is past the opcode byte, so this is its address plus 2) high byte first, then SR
with bit 4 set; sets I; and goes to the word at 0xFFFE. It does so whatever I holds. -/
def Obligations.BrkTakesTheTrap : Prop :=
  EncodedAs .brk [(.imp, 0x00)] ∧
  ∀ s : State, ∃ t, exec .brk s = .next t ∧ t.sp = s.sp - 3 ∧ t.flag .i = true ∧
    (t.readByte (stackAddr s.sp)).toNat = (s.pc.toNat + 1) % 65536 / 256 ∧
    (t.readByte (stackAddr (s.sp - 1))).toNat = (s.pc.toNat + 1) % 256 ∧
    t.readByte (stackAddr (s.sp - 2)) = s.sr ||| 0x10 ∧
    t.pc.toNat = (s.readByte 0xFFFE).toNat + 256 * (s.readByte 0xFFFF).toNat ∧
    Frame [.sp] [.i] [stackAddr s.sp, stackAddr (s.sp - 1), stackAddr (s.sp - 2)] s t

/-- R188: RTI after BRK restores SR (bit 4 being 0), SP, and PC past the skipped byte. -/
def Obligations.RtiUndoesBrk : Prop :=
  ∀ s : State, s.flag .b = false → ∃ t u, exec .brk s = .next t ∧ exec .rti t = .next u ∧ u.sr = s.sr ∧ u.sp = s.sp ∧
    u.pc = s.pc + 1

/-- R178: NOP changes nothing. -/
def Obligations.NopChangesNothing : Prop :=
  EncodedAs .nop [(.imp, 0xEA)] ∧ ∀ s : State, exec .nop s = .next s

/-! ### Whole-machine rules -/

/-- R25: a flag that an instruction does not declare is unchanged, and every instruction has a next state. -/
def Obligations.UndeclaredFlagsAreUnchanged : Prop :=
  ∀ (i : Instr) (s : State), ∃ t, exec i s = .next t ∧ ∀ f, f ∉ declaredFlags i.mnemonic → t.flag f = s.flag f

/-- R11, R12, R13: only the instructions named there write A, X, Y or SP; a shift writes A in mode ACC only. -/
def Obligations.OnlyNamedInstructionsWriteARegister : Prop :=
  ∀ (i : Instr) (s t : State), exec i s = .next t →
    (∀ r, i.mnemonic ∉ regWriters r → t.reg r = s.reg r) ∧
    (i.mnemonic ∈ [Mnemonic.asl, .lsr, .rol, .ror] → i.mode ≠ .acc → t.a = s.a)

/-- R19 to R22: D and I (and U and B) decide nothing. Changing one of them before an instruction changes no other flag, no
register, not where control goes, and no byte of memory but the status byte that PHP and BRK push; not that byte either when
the flag is B, which they push as 1 either way. -/
def Obligations.StorageFlagsDecideNothing : Prop :=
  ∀ (i : Instr) (s : State) (f : Flag) (value : Bool), f ∈ [Flag.u, .b, .d, .i] →
    ∃ t u, exec i s = .next t ∧ exec i (s.setFlag f value) = .next u ∧ u.pc = t.pc ∧ u.ic = t.ic ∧
      (∀ r, u.reg r = t.reg r) ∧ (∀ g, g ≠ f → u.flag g = t.flag g) ∧
      (i.mnemonic ∉ [Mnemonic.php, .brk] ∨ f = .b → u.mem = t.mem) ∧
      (i.mnemonic = .php → ∀ addr, addr ≠ stackAddr s.sp → u.readByte addr = t.readByte addr) ∧
      (i.mnemonic = .brk → ∀ addr, addr ≠ stackAddr (s.sp - 2) → u.readByte addr = t.readByte addr)

/-- R28: a program cannot observe the counter. -/
def Obligations.TheCounterIsNotObservable : Prop :=
  ∀ (s t : State) (n : Nat), step s = .next t → step { s with ic := n } = .next { t with ic := n + 1 }

/-- R95, R88, R224: the memory after a step is the memory before it with the writes of the step's access list applied, and
an instruction writes memory through that list only. -/
def Obligations.AccessListRebuildsTheMemory : Prop :=
  ∀ (s t : State) (i : Instr), s.fetch = .ok i → step s = .next t →
    t.mem = s.mem.replay (accesses i s) ∧
    ∀ addr, addr ∉ writtenAddrs (accesses i s) → t.readByte addr = s.readByte addr

/-! ### The host -/

/-- R208: `write_bytes` stores each byte at its address modulo 65,536, later bytes over earlier ones, and nothing else. -/
def Obligations.HostWriteBytesStoresInOrder : Prop :=
  ∀ (s : State) (bytes : List Byte) (dest : Nat),
    (∀ k, (h : k < bytes.length) →
      (∀ j, k < j → j < bytes.length → (dest + j) % 65536 ≠ (dest + k) % 65536) →
      (s.hostWriteBytes bytes dest).hostRead8 (dest + k) = bytes[k]) ∧
    (∀ addr : Addr, (∀ k, k < bytes.length → (dest + k) % 65536 ≠ addr.toNat) →
      (s.hostWriteBytes bytes dest).readByte addr = s.readByte addr) ∧
    (s.hostWriteBytes bytes dest).registers = s.registers ∧ (s.hostWriteBytes bytes dest).ic = s.ic

/-- R209: `fill` stores at every address from start up to but not including the end, which may be 0x10000; nothing when
start is not below the end. -/
def Obligations.HostFillIsHalfOpen : Prop :=
  ∀ (s : State) (start stop : Nat) (v : Byte), stop ≤ 0x10000 →
    (∀ addr : Addr, (s.hostFill start stop v).readByte addr =
      if start ≤ addr.toNat ∧ addr.toNat < stop then v else s.readByte addr) ∧
    (stop ≤ start → s.hostFill start stop v = s) ∧
    (s.hostFill start stop v).registers = s.registers ∧ (s.hostFill start stop v).ic = s.ic

/-- R211: the synthetic JMP is a plain write of PC. -/
def Obligations.SyntheticJmpWritesPcOnly : Prop :=
  ∀ (s : State) (v : Addr), (s.hostWriteRegister (.pc v)).pc = v ∧ Frame [] [] [] s (s.hostWriteRegister (.pc v)) ∧
    (s.hostWriteRegister (.pc v)).mem = s.mem

/-- R219: the first RTS after loading executes normally, and then the driver sets PC to the play address, once. That the
driver does nothing at a later RTS (the latch off) is the model's choice: the spec describes the first RTS only
(91_not_in_source.md N15; log entry 15). -/
def Obligations.FirstRtsInstallsPlayAddress : Prop :=
  ∀ (d : NsfDriver) (t : State), step d.machine = .next t →
    ∃ d', d.step = .next d' ∧
      (d.awaitingFirstRts = true → d.machine.fetch = .ok .rts →
        d'.machine = { t with pc := d.playAddr } ∧ d'.awaitingFirstRts = false) ∧
      (d.awaitingFirstRts = false ∨ d.machine.fetch ≠ .ok .rts →
        d'.machine = t ∧ d'.awaitingFirstRts = d.awaitingFirstRts)

/-- R216, R217, R219, R220: a file without the magic is refused; otherwise the loader sets X from the PAL bit, A to the
starting song minus 1, PC to the init address, arms the latch, and leaves Y, SP, SR and IC. A file too short for its header
is no header (log entry 15). -/
def Obligations.NsfLoadSetsUpTheFirstCall : Prop :=
  ∀ (s : State) (file : List Byte),
    (file.take 4 ≠ nsfMagic → s.nsfLoad file = .error .badMagic) ∧
    ∀ h, nsfHeader file = .ok h → ∃ d, s.nsfLoad file = .ok d ∧ d.machine.pc = h.initAddr ∧
      (d.machine.a.toNat : Int) = ((h.startingSong.toNat : Int) - 1) % 256 ∧
      d.machine.x = (if h.mode.getLsbD 0 then 1 else 0) ∧ d.machine.y = s.y ∧ d.machine.sp = s.sp ∧ d.machine.sr = s.sr ∧
      d.machine.ic = s.ic ∧ d.playAddr = h.playAddr ∧ d.awaitingFirstRts = true
end

