-- ==== Sys2Proof/Laws/Words.lean ====
section
/-! SUPPORT. The byte-order, zero-page, stack-page and sign-extension helpers as numbers
(20_memory.md R34, R35; 10_state.md R13; 30_encoding.md R52, R53). -/

namespace Sys2Proof.Machine

theorem makeWord_toNat (hi lo : Byte) : (makeWord hi lo).toNat = lo.toNat + 256 * hi.toNat := by
  have hl := lo.isLt
  rw [makeWord, BitVec.toNat_append, ← Nat.shiftLeft_add_eq_or_of_lt hl, Nat.shiftLeft_eq]
  omega

theorem loByte_toNat (w : Addr) : (loByte w).toNat = w.toNat % 256 := by
  simp [loByte]

theorem hiByte_toNat (w : Addr) : (hiByte w).toNat = w.toNat / 256 := by
  have h := w.isLt
  simp only [hiByte, BitVec.extractLsb'_toNat, Nat.shiftRight_eq_div_pow]
  omega

/-- Splitting a word into its bytes and assembling them gives it back (30_encoding.md R52). -/
theorem makeWord_hiByte_loByte (w : Addr) : makeWord (hiByte w) (loByte w) = w := by
  apply BitVec.eq_of_toNat_eq
  rw [makeWord_toNat, loByte_toNat, hiByte_toNat]
  omega

theorem loByte_makeWord (hi lo : Byte) : loByte (makeWord hi lo) = lo := by
  have h := lo.isLt
  apply BitVec.eq_of_toNat_eq
  rw [loByte_toNat, makeWord_toNat]
  omega

theorem hiByte_makeWord (hi lo : Byte) : hiByte (makeWord hi lo) = hi := by
  have h := lo.isLt
  apply BitVec.eq_of_toNat_eq
  rw [hiByte_toNat, makeWord_toNat]
  omega

theorem zeroPage_toNat (p : Byte) : (zeroPage p).toNat = p.toNat := by
  have h := p.isLt
  simp only [zeroPage, BitVec.toNat_setWidth]
  omega

/-- The stack lies in page one, at 0x0100 plus SP (10_state.md R13). -/
theorem stackAddr_toNat (sp : Byte) : (stackAddr sp).toNat = 0x0100 + sp.toNat := by
  have h := sp.isLt
  have e : (0x0100 : Nat) = 1 <<< 8 := rfl
  simp only [stackAddr, BitVec.toNat_or, zeroPage_toNat]
  show 256 ||| sp.toNat = _
  rw [show (256 : Nat) = 1 <<< 8 from rfl, ← Nat.shiftLeft_add_eq_or_of_lt h]

theorem stackAddr_inj (p q : Byte) : stackAddr p = stackAddr q ↔ p = q := by
  constructor
  · intro h
    have := congrArg BitVec.toNat h
    rw [stackAddr_toNat, stackAddr_toNat] at this
    exact BitVec.eq_of_toNat_eq (by omega)
  · rintro rfl; rfl

/-- The stack page does not reach the BRK vector (47_flag_brk_nop.md R177, corner cases). -/
theorem stackAddr_ne_vector (p : Byte) : stackAddr p ≠ brkVector ∧ stackAddr p ≠ brkVector + 1 := by
  have h := p.isLt
  constructor <;> intro e <;> have := congrArg BitVec.toNat e <;> rw [stackAddr_toNat] at this <;>
    simp [brkVector] at this <;> omega

/-- The branch target as an integer sum modulo 65,536 (46_jump_branch.md R155). -/
theorem add_signExtend_toNat (pc : Addr) (rel : Byte) :
    ((pc + signExtend rel).toNat : Int) = ((pc.toNat : Int) + rel.toInt) % 65536 := by
  have h := rel.isLt
  have hp := pc.isLt
  rw [signExtend, BitVec.toNat_add, BitVec.toNat_signExtend, BitVec.toInt_eq_toNat_cond]
  simp only [BitVec.msb_eq_decide, BitVec.toNat_setWidth]
  by_cases hr : 2 * rel.toNat < 2 ^ 8
  · have : ¬ (2 ^ (8 - 1) ≤ rel.toNat) := by omega
    simp only [this, hr, decide_false, if_true, Bool.false_eq_true, if_false]
    omega
  · have : 2 ^ (8 - 1) ≤ rel.toNat := by omega
    simp only [this, hr, decide_true, if_true, if_false]
    omega

end Sys2Proof.Machine
end

