-- ==== Sys2Proof/Laws/Decode.lean ====
section
/-! SUPPORT. The dispatch matrix (30_encoding.md R55) against the table of R59: each assigned byte's form has the mnemonic
and mode under which R59 lists that byte. -/

namespace Sys2Proof

/-- The instruction of a form with zero operand bytes; its mnemonic and mode are those of every instruction of the form. -/
def Form.sample : Form → Instr
  | .one i => i
  | .two make => make 0
  | .three make => make 0

/-- The 256 bytes. -/
def allBytes : List Byte := (List.range 256).map (BitVec.ofNat 8)

theorem mem_allBytes (op : Byte) : op ∈ allBytes := by
  refine List.mem_map.2 ⟨op.toNat, List.mem_range.2 op.isLt, ?_⟩
  simp

/-- R55 and R59 say the same of every byte. -/
theorem matrix_agrees_with_opcodes :
    (allBytes.all fun op =>
      match dispatch op with
      | none => true
      | some f => (opcodesOf f.sample.mnemonic).lookup f.sample.mode == some op) = true := by
  decide +kernel

/-- The matrix has 151 assigned bytes and 105 unassigned ones (30_encoding.md R55). -/
theorem matrix_counts :
    (allBytes.filter fun op => (dispatch op).isSome).length = 151 ∧
    (allBytes.filter fun op => (dispatch op).isNone).length = 105 := by
  decide +kernel

/-- The modes of WellFormed.lean are those of the opcode table (30_encoding.md R59). -/
theorem modes_are_the_tables (m : Mnemonic) : (opcodesOf m).map Prod.fst = m.modes := by
  cases m <;> rfl

/-- Every instruction is well formed: the constructors are the rows of the table (30_encoding.md R59, R61). -/
theorem Instr.wellFormed (i : Instr) : i.WellFormed := by
  cases i <;> rfl

end Sys2Proof
end

