-- ==== Sys2Proof/Laws/Flags.lean ====
section
/-! SUPPORT. Reading a status byte after writing a flag of it, and the pushed and loaded copies of SR
(00_scope.md R6; 10_state.md R20). -/

namespace Sys2Proof.Machine

/-- Reading a flag after writing one: the written flag has the new value, every other one is as before. -/
theorem Flag.get_put (f g : Flag) (value : Bool) (sr : Byte) :
    g.get (f.put value sr) = if g = f then value else g.get sr := by
  cases f <;> cases g <;> cases value <;> simp [get, put, mask, bit]

/-- The pushed copy has bit 4 set and the other bits as they are. -/
theorem Flag.get_pushedStatus (f : Flag) (sr : Byte) :
    f.get (pushedStatus sr) = if f = .b then true else f.get sr := by
  cases f <;> simp [get, pushedStatus, bit]

/-- The loaded copy has bit 4 clear and the other bits as popped. -/
theorem Flag.get_loadedStatus (f : Flag) (popped : Byte) :
    f.get (loadedStatus popped) = if f = .b then false else f.get popped := by
  cases f <;> simp [get, loadedStatus, bit]

/-- A status byte is its eight flags. -/
theorem Flag.ext_of_get {p q : Byte} (h : ∀ f : Flag, f.get p = f.get q) : p = q := by
  apply BitVec.eq_of_getLsbD_eq
  intro k hk
  have h0 := h .c; have h1 := h .z; have h2 := h .i; have h3 := h .d
  have h4 := h .b; have h5 := h .u; have h6 := h .v; have h7 := h .n
  simp only [get, bit] at h0 h1 h2 h3 h4 h5 h6 h7
  match k, hk with
  | 0, _ => exact h0
  | 1, _ => exact h1
  | 2, _ => exact h2
  | 3, _ => exact h3
  | 4, _ => exact h4
  | 5, _ => exact h5
  | 6, _ => exact h6
  | 7, _ => exact h7

/-- Loading what was pushed gives the status back, when bit 4 was 0 (42_transfer_stack.md R119). -/
theorem loadedStatus_pushedStatus (sr : Byte) (h : Flag.b.get sr = false) : loadedStatus (pushedStatus sr) = sr := by
  apply Flag.ext_of_get
  intro f
  rw [Flag.get_loadedStatus, Flag.get_pushedStatus]
  by_cases hf : f = .b <;> simp [hf, h]

/-- Z of a byte. -/
theorem isZero_iff (v : Byte) : isZero v = true ↔ v = 0 := by simp [isZero]

end Sys2Proof.Machine
end

