-- ==== Sys2Proof/Laws/Memory.lean ====
section
/-! SUPPORT. The memory list: what a write does to every read, and that erasing, inserting and writing keep the canonical
form (20_memory.md R31, R32; 10_state.md R27). -/

namespace Sys2Proof.Machine

theorem Memory.read_erase (m : Memory) (k j : Nat) :
    (m.erase k).read j = if j = k then unlisted else m.read j := by
  induction m with
  | nil => simp [erase, read]
  | cons c m ih =>
    obtain ⟨a, v⟩ := c
    by_cases hak : a = k
    · simp only [erase, hak, if_true, ih, read]
      by_cases hjk : j = k
      · simp [hjk]
      · simp [hjk, Ne.symm hjk]
    · simp only [erase, hak, if_false, read, ih]
      by_cases haj : a = j
      · have : j ≠ k := fun h => hak (haj.trans h)
        simp [haj, this]
      · simp [haj]

theorem Memory.read_insert (m : Memory) (k j : Nat) (v : Byte) (fresh : m.read k = unlisted)
    (absent : ∀ c ∈ m, c.1 ≠ k) : (m.insert k v).read j = if j = k then v else m.read j := by
  induction m with
  | nil => by_cases h : k = j <;> simp [insert, read, h, eq_comm]
  | cons c m ih =>
    obtain ⟨a, w⟩ := c
    have hak : a ≠ k := absent (a, w) (by simp)
    by_cases hka : k < a
    · rw [insert, if_pos hka]
      by_cases hkj : k = j
      · simp [read, hkj]
      · simp [read, hkj, Ne.symm hkj]
    · simp only [read, hak, if_false] at fresh
      simp only [insert, hka, if_false, read, ih fresh (fun c hc => absent c (List.mem_cons_of_mem _ hc))]
      by_cases haj : a = j
      · simp [haj, (haj ▸ hak : j ≠ k)]
      · simp [haj]

theorem Memory.absent_erase (m : Memory) (k : Nat) : ∀ c ∈ m.erase k, c.1 ≠ k := by
  induction m with
  | nil => simp [erase]
  | cons c m ih =>
    obtain ⟨a, v⟩ := c
    by_cases hak : a = k
    · simpa [erase, hak] using ih
    · simp only [erase, hak, if_false, List.mem_cons]
      rintro c (rfl | hc)
      · exact hak
      · exact ih c hc

/-- Everything a write does to a read: the written address reads the new byte, every other one reads as before. -/
theorem Memory.read_write (m : Memory) (k j : Nat) (v : Byte) :
    (m.write k v).read j = if j = k then v else m.read j := by
  by_cases hv : v = unlisted
  · simp [write, hv, read_erase]
  · have fresh : (m.erase k).read k = unlisted := by simp [read_erase]
    rw [write, if_neg hv, read_insert _ _ _ _ fresh (absent_erase m k), read_erase]
    by_cases h : j = k <;> simp [h]

theorem Memory.wfFrom_mono {lo lo' : Nat} (m : Memory) (h : lo' ≤ lo) (hm : wfFrom lo m = true) :
    wfFrom lo' m = true := by
  cases m with
  | nil => rfl
  | cons c m =>
    simp only [wfFrom, Bool.and_eq_true, decide_eq_true_eq] at hm ⊢
    exact ⟨⟨⟨by omega, hm.1.1.2⟩, hm.1.2⟩, hm.2⟩

theorem Memory.wfFrom_erase {lo : Nat} (m : Memory) (k : Nat) (hm : wfFrom lo m = true) :
    wfFrom lo (m.erase k) = true := by
  induction m generalizing lo with
  | nil => rfl
  | cons c m ih =>
    obtain ⟨a, v⟩ := c
    simp only [wfFrom, Bool.and_eq_true, decide_eq_true_eq] at hm
    by_cases hak : a = k
    · rw [erase, if_pos hak]
      exact wfFrom_mono _ (by omega) (ih hm.2)
    · rw [erase, if_neg hak]
      simp only [wfFrom, Bool.and_eq_true, decide_eq_true_eq]
      exact ⟨hm.1, ih hm.2⟩

theorem Memory.wfFrom_insert {lo : Nat} (m : Memory) (k : Nat) (v : Byte) (hm : wfFrom lo m = true) (hlo : lo ≤ k)
    (hk : k < 0x10000) (hv : v ≠ unlisted) (absent : ∀ c ∈ m, c.1 ≠ k) : wfFrom lo (m.insert k v) = true := by
  induction m generalizing lo with
  | nil => simp [insert, wfFrom, hlo, hk, hv]
  | cons c m ih =>
    obtain ⟨a, w⟩ := c
    have hak : a ≠ k := absent (a, w) (by simp)
    simp only [wfFrom, Bool.and_eq_true, decide_eq_true_eq] at hm
    by_cases hka : k < a
    · rw [insert, if_pos hka]
      simp only [wfFrom, Bool.and_eq_true, decide_eq_true_eq, bne_iff_ne]
      exact ⟨⟨⟨hlo, hk⟩, hv⟩, ⟨⟨by omega, hm.1.1.2⟩, bne_iff_ne.1 hm.1.2⟩, hm.2⟩
    · rw [insert, if_neg hka]
      simp only [wfFrom, Bool.and_eq_true, decide_eq_true_eq]
      exact ⟨hm.1, ih hm.2 (by omega) (fun c hc => absent c (List.mem_cons_of_mem _ hc))⟩

/-- A write inside the address space keeps the canonical form. -/
theorem Memory.wf_write (m : Memory) (k : Nat) (v : Byte) (hk : k < 0x10000) (hm : m.wf = true) :
    (m.write k v).wf = true := by
  unfold wf at *
  by_cases hv : v = unlisted
  · rw [write, if_pos hv]
    exact wfFrom_erase m k hm
  · rw [write, if_neg hv]
    exact wfFrom_insert _ k v (wfFrom_erase m k hm) (Nat.zero_le k) hk hv (absent_erase m k)

theorem Memory.wf_nil : Memory.wf [] = true := rfl

/-! ### The same, as accesses of a state -/

/-- Everything `MemWrite` does to `MemRead` (20_memory.md R31, R32). -/
theorem readByte_writeByte (s : State) (addr b : Addr) (v : Byte) :
    (s.writeByte addr v).readByte b = if b = addr then v else s.readByte b := by
  have : b.toNat = addr.toNat ↔ b = addr := BitVec.toNat_inj
  simp [State.readByte, State.writeByte, State.setMem, Memory.read_write, this]

theorem wf_writeByte (s : State) (addr : Addr) (v : Byte) (h : s.mem.wf = true) : (s.writeByte addr v).mem.wf = true :=
  Memory.wf_write s.mem addr.toNat v addr.isLt h

end Sys2Proof.Machine
end

