-- ==== Sys2Proof/Laws/State.lean ====
section
/-! SUPPORT. One lemma per field and update of State, each true by rfl, so that no proof unfolds a record update. -/

namespace Sys2Proof.Machine

@[simp] theorem setPc_pc (s : State) (v : Addr) : (s.setPc v).pc = v := rfl
@[simp] theorem setPc_a (s : State) (v : Addr) : (s.setPc v).a = s.a := rfl
@[simp] theorem setPc_x (s : State) (v : Addr) : (s.setPc v).x = s.x := rfl
@[simp] theorem setPc_y (s : State) (v : Addr) : (s.setPc v).y = s.y := rfl
@[simp] theorem setPc_sp (s : State) (v : Addr) : (s.setPc v).sp = s.sp := rfl
@[simp] theorem setPc_sr (s : State) (v : Addr) : (s.setPc v).sr = s.sr := rfl
@[simp] theorem setPc_mem (s : State) (v : Addr) : (s.setPc v).mem = s.mem := rfl
@[simp] theorem setPc_ic (s : State) (v : Addr) : (s.setPc v).ic = s.ic := rfl

@[simp] theorem setA_pc (s : State) (v : Byte) : (s.setA v).pc = s.pc := rfl
@[simp] theorem setA_a (s : State) (v : Byte) : (s.setA v).a = v := rfl
@[simp] theorem setA_x (s : State) (v : Byte) : (s.setA v).x = s.x := rfl
@[simp] theorem setA_y (s : State) (v : Byte) : (s.setA v).y = s.y := rfl
@[simp] theorem setA_sp (s : State) (v : Byte) : (s.setA v).sp = s.sp := rfl
@[simp] theorem setA_sr (s : State) (v : Byte) : (s.setA v).sr = s.sr := rfl
@[simp] theorem setA_mem (s : State) (v : Byte) : (s.setA v).mem = s.mem := rfl
@[simp] theorem setA_ic (s : State) (v : Byte) : (s.setA v).ic = s.ic := rfl

@[simp] theorem setX_pc (s : State) (v : Byte) : (s.setX v).pc = s.pc := rfl
@[simp] theorem setX_a (s : State) (v : Byte) : (s.setX v).a = s.a := rfl
@[simp] theorem setX_x (s : State) (v : Byte) : (s.setX v).x = v := rfl
@[simp] theorem setX_y (s : State) (v : Byte) : (s.setX v).y = s.y := rfl
@[simp] theorem setX_sp (s : State) (v : Byte) : (s.setX v).sp = s.sp := rfl
@[simp] theorem setX_sr (s : State) (v : Byte) : (s.setX v).sr = s.sr := rfl
@[simp] theorem setX_mem (s : State) (v : Byte) : (s.setX v).mem = s.mem := rfl
@[simp] theorem setX_ic (s : State) (v : Byte) : (s.setX v).ic = s.ic := rfl

@[simp] theorem setY_pc (s : State) (v : Byte) : (s.setY v).pc = s.pc := rfl
@[simp] theorem setY_a (s : State) (v : Byte) : (s.setY v).a = s.a := rfl
@[simp] theorem setY_x (s : State) (v : Byte) : (s.setY v).x = s.x := rfl
@[simp] theorem setY_y (s : State) (v : Byte) : (s.setY v).y = v := rfl
@[simp] theorem setY_sp (s : State) (v : Byte) : (s.setY v).sp = s.sp := rfl
@[simp] theorem setY_sr (s : State) (v : Byte) : (s.setY v).sr = s.sr := rfl
@[simp] theorem setY_mem (s : State) (v : Byte) : (s.setY v).mem = s.mem := rfl
@[simp] theorem setY_ic (s : State) (v : Byte) : (s.setY v).ic = s.ic := rfl

@[simp] theorem setSp_pc (s : State) (v : Byte) : (s.setSp v).pc = s.pc := rfl
@[simp] theorem setSp_a (s : State) (v : Byte) : (s.setSp v).a = s.a := rfl
@[simp] theorem setSp_x (s : State) (v : Byte) : (s.setSp v).x = s.x := rfl
@[simp] theorem setSp_y (s : State) (v : Byte) : (s.setSp v).y = s.y := rfl
@[simp] theorem setSp_sp (s : State) (v : Byte) : (s.setSp v).sp = v := rfl
@[simp] theorem setSp_sr (s : State) (v : Byte) : (s.setSp v).sr = s.sr := rfl
@[simp] theorem setSp_mem (s : State) (v : Byte) : (s.setSp v).mem = s.mem := rfl
@[simp] theorem setSp_ic (s : State) (v : Byte) : (s.setSp v).ic = s.ic := rfl

@[simp] theorem setSr_pc (s : State) (v : Byte) : (s.setSr v).pc = s.pc := rfl
@[simp] theorem setSr_a (s : State) (v : Byte) : (s.setSr v).a = s.a := rfl
@[simp] theorem setSr_x (s : State) (v : Byte) : (s.setSr v).x = s.x := rfl
@[simp] theorem setSr_y (s : State) (v : Byte) : (s.setSr v).y = s.y := rfl
@[simp] theorem setSr_sp (s : State) (v : Byte) : (s.setSr v).sp = s.sp := rfl
@[simp] theorem setSr_sr (s : State) (v : Byte) : (s.setSr v).sr = v := rfl
@[simp] theorem setSr_mem (s : State) (v : Byte) : (s.setSr v).mem = s.mem := rfl
@[simp] theorem setSr_ic (s : State) (v : Byte) : (s.setSr v).ic = s.ic := rfl

@[simp] theorem setMem_pc (s : State) (v : Memory) : (s.setMem v).pc = s.pc := rfl
@[simp] theorem setMem_a (s : State) (v : Memory) : (s.setMem v).a = s.a := rfl
@[simp] theorem setMem_x (s : State) (v : Memory) : (s.setMem v).x = s.x := rfl
@[simp] theorem setMem_y (s : State) (v : Memory) : (s.setMem v).y = s.y := rfl
@[simp] theorem setMem_sp (s : State) (v : Memory) : (s.setMem v).sp = s.sp := rfl
@[simp] theorem setMem_sr (s : State) (v : Memory) : (s.setMem v).sr = s.sr := rfl
@[simp] theorem setMem_mem (s : State) (v : Memory) : (s.setMem v).mem = v := rfl
@[simp] theorem setMem_ic (s : State) (v : Memory) : (s.setMem v).ic = s.ic := rfl

@[simp] theorem setIc_pc (s : State) (v : Nat) : (s.setIc v).pc = s.pc := rfl
@[simp] theorem setIc_a (s : State) (v : Nat) : (s.setIc v).a = s.a := rfl
@[simp] theorem setIc_x (s : State) (v : Nat) : (s.setIc v).x = s.x := rfl
@[simp] theorem setIc_y (s : State) (v : Nat) : (s.setIc v).y = s.y := rfl
@[simp] theorem setIc_sp (s : State) (v : Nat) : (s.setIc v).sp = s.sp := rfl
@[simp] theorem setIc_sr (s : State) (v : Nat) : (s.setIc v).sr = s.sr := rfl
@[simp] theorem setIc_mem (s : State) (v : Nat) : (s.setIc v).mem = s.mem := rfl
@[simp] theorem setIc_ic (s : State) (v : Nat) : (s.setIc v).ic = v := rfl

@[simp] theorem setFlag_pc (s : State) (f : Flag) (b : Bool) : (s.setFlag f b).pc = s.pc := rfl
@[simp] theorem setFlag_a (s : State) (f : Flag) (b : Bool) : (s.setFlag f b).a = s.a := rfl
@[simp] theorem setFlag_x (s : State) (f : Flag) (b : Bool) : (s.setFlag f b).x = s.x := rfl
@[simp] theorem setFlag_y (s : State) (f : Flag) (b : Bool) : (s.setFlag f b).y = s.y := rfl
@[simp] theorem setFlag_sp (s : State) (f : Flag) (b : Bool) : (s.setFlag f b).sp = s.sp := rfl
@[simp] theorem setFlag_mem (s : State) (f : Flag) (b : Bool) : (s.setFlag f b).mem = s.mem := rfl
@[simp] theorem setFlag_ic (s : State) (f : Flag) (b : Bool) : (s.setFlag f b).ic = s.ic := rfl

@[simp] theorem writeByte_pc (s : State) (addr : Addr) (b : Byte) : (s.writeByte addr b).pc = s.pc := rfl
@[simp] theorem writeByte_a (s : State) (addr : Addr) (b : Byte) : (s.writeByte addr b).a = s.a := rfl
@[simp] theorem writeByte_x (s : State) (addr : Addr) (b : Byte) : (s.writeByte addr b).x = s.x := rfl
@[simp] theorem writeByte_y (s : State) (addr : Addr) (b : Byte) : (s.writeByte addr b).y = s.y := rfl
@[simp] theorem writeByte_sp (s : State) (addr : Addr) (b : Byte) : (s.writeByte addr b).sp = s.sp := rfl
@[simp] theorem writeByte_sr (s : State) (addr : Addr) (b : Byte) : (s.writeByte addr b).sr = s.sr := rfl
@[simp] theorem writeByte_ic (s : State) (addr : Addr) (b : Byte) : (s.writeByte addr b).ic = s.ic := rfl

@[simp] theorem setNZ_pc (s : State) (v : Byte) : (s.setNZ v).pc = s.pc := rfl
@[simp] theorem setNZ_a (s : State) (v : Byte) : (s.setNZ v).a = s.a := rfl
@[simp] theorem setNZ_x (s : State) (v : Byte) : (s.setNZ v).x = s.x := rfl
@[simp] theorem setNZ_y (s : State) (v : Byte) : (s.setNZ v).y = s.y := rfl
@[simp] theorem setNZ_sp (s : State) (v : Byte) : (s.setNZ v).sp = s.sp := rfl
@[simp] theorem setNZ_mem (s : State) (v : Byte) : (s.setNZ v).mem = s.mem := rfl
@[simp] theorem setNZ_ic (s : State) (v : Byte) : (s.setNZ v).ic = s.ic := rfl

@[simp] theorem push_pc (s : State) (v : Byte) : (s.push v).pc = s.pc := rfl
@[simp] theorem push_a (s : State) (v : Byte) : (s.push v).a = s.a := rfl
@[simp] theorem push_x (s : State) (v : Byte) : (s.push v).x = s.x := rfl
@[simp] theorem push_y (s : State) (v : Byte) : (s.push v).y = s.y := rfl
@[simp] theorem push_sp (s : State) (v : Byte) : (s.push v).sp = s.sp - 1 := rfl
@[simp] theorem push_sr (s : State) (v : Byte) : (s.push v).sr = s.sr := rfl
@[simp] theorem push_mem (s : State) (v : Byte) : (s.push v).mem = s.mem.write (stackAddr s.sp).toNat v := rfl
@[simp] theorem push_ic (s : State) (v : Byte) : (s.push v).ic = s.ic := rfl

@[simp] theorem popped_pc (s : State) : s.popped.pc = s.pc := rfl
@[simp] theorem popped_a (s : State) : s.popped.a = s.a := rfl
@[simp] theorem popped_x (s : State) : s.popped.x = s.x := rfl
@[simp] theorem popped_y (s : State) : s.popped.y = s.y := rfl
@[simp] theorem popped_sp (s : State) : s.popped.sp = s.sp + 1 := rfl
@[simp] theorem popped_sr (s : State) : s.popped.sr = s.sr := rfl
@[simp] theorem popped_mem (s : State) : s.popped.mem = s.mem := rfl
@[simp] theorem popped_ic (s : State) : s.popped.ic = s.ic := rfl

@[simp] theorem advancePc_pc (s : State) (n : Nat) : (s.advancePc n).pc = s.pc + BitVec.ofNat 16 n := rfl
@[simp] theorem advancePc_a (s : State) (n : Nat) : (s.advancePc n).a = s.a := rfl
@[simp] theorem advancePc_x (s : State) (n : Nat) : (s.advancePc n).x = s.x := rfl
@[simp] theorem advancePc_y (s : State) (n : Nat) : (s.advancePc n).y = s.y := rfl
@[simp] theorem advancePc_sp (s : State) (n : Nat) : (s.advancePc n).sp = s.sp := rfl
@[simp] theorem advancePc_sr (s : State) (n : Nat) : (s.advancePc n).sr = s.sr := rfl
@[simp] theorem advancePc_mem (s : State) (n : Nat) : (s.advancePc n).mem = s.mem := rfl
@[simp] theorem advancePc_ic (s : State) (n : Nat) : (s.advancePc n).ic = s.ic := rfl

@[simp] theorem countInstruction_pc (s : State) : s.countInstruction.pc = s.pc := rfl
@[simp] theorem countInstruction_a (s : State) : s.countInstruction.a = s.a := rfl
@[simp] theorem countInstruction_x (s : State) : s.countInstruction.x = s.x := rfl
@[simp] theorem countInstruction_y (s : State) : s.countInstruction.y = s.y := rfl
@[simp] theorem countInstruction_sp (s : State) : s.countInstruction.sp = s.sp := rfl
@[simp] theorem countInstruction_sr (s : State) : s.countInstruction.sr = s.sr := rfl
@[simp] theorem countInstruction_mem (s : State) : s.countInstruction.mem = s.mem := rfl
@[simp] theorem countInstruction_ic (s : State) : s.countInstruction.ic = s.ic + 1 := rfl

end Sys2Proof.Machine
end

