-- ==== Sys2Proof/Laws/Ops.lean ====
section
/-! SUPPORT. For each shared operation, once, what it does: to the flags, the registers, PC and every byte of memory.
A proof about an instruction cites these and unfolds no operation. -/

namespace Sys2Proof.Machine

/-! ### Flags of a state -/

theorem flag_setFlag (s : State) (f g : Flag) (b : Bool) :
    (s.setFlag f b).flag g = if g = f then b else s.flag g := Flag.get_put f g b s.sr

theorem flag_setNZ (s : State) (v : Byte) (g : Flag) :
    (s.setNZ v).flag g = if g = .z then isZero v else if g = .n then sign v else s.flag g := by
  simp [State.setNZ, flag_setFlag]

/-- Two states with the same flags have the same SR. -/
theorem sr_ext {s t : State} (h : ∀ f, t.flag f = s.flag f) : t.sr = s.sr := Flag.ext_of_get h

/-- A state's flags depend on SR only, its bytes on memory only. -/
theorem flag_congr {s t : State} (h : t.sr = s.sr) (f : Flag) : t.flag f = s.flag f := by simp [State.flag, h]

theorem readByte_congr {s t : State} (h : t.mem = s.mem) (addr : Addr) : t.readByte addr = s.readByte addr := by
  simp [State.readByte, h]

@[simp] theorem readByte_setFlag (s : State) (f : Flag) (b : Bool) (addr : Addr) :
    (s.setFlag f b).readByte addr = s.readByte addr := rfl

@[simp] theorem readByte_setNZ (s : State) (v : Byte) (addr : Addr) : (s.setNZ v).readByte addr = s.readByte addr := rfl

/-! ### Loading a register: the register, N and Z; nothing else -/

theorem loadA_spec (s : State) (v : Byte) :
    (s.loadA v).a = v ∧ (s.loadA v).x = s.x ∧ (s.loadA v).y = s.y ∧ (s.loadA v).sp = s.sp ∧ (s.loadA v).pc = s.pc ∧
    (s.loadA v).mem = s.mem ∧ (s.loadA v).ic = s.ic ∧
    ∀ g, (s.loadA v).flag g = if g = .z then isZero v else if g = .n then sign v else s.flag g :=
  ⟨rfl, rfl, rfl, rfl, rfl, rfl, rfl, fun g => flag_setNZ (s.setA v) v g⟩

theorem loadX_spec (s : State) (v : Byte) :
    (s.loadX v).x = v ∧ (s.loadX v).a = s.a ∧ (s.loadX v).y = s.y ∧ (s.loadX v).sp = s.sp ∧ (s.loadX v).pc = s.pc ∧
    (s.loadX v).mem = s.mem ∧ (s.loadX v).ic = s.ic ∧
    ∀ g, (s.loadX v).flag g = if g = .z then isZero v else if g = .n then sign v else s.flag g :=
  ⟨rfl, rfl, rfl, rfl, rfl, rfl, rfl, fun g => flag_setNZ (s.setX v) v g⟩

theorem loadY_spec (s : State) (v : Byte) :
    (s.loadY v).y = v ∧ (s.loadY v).a = s.a ∧ (s.loadY v).x = s.x ∧ (s.loadY v).sp = s.sp ∧ (s.loadY v).pc = s.pc ∧
    (s.loadY v).mem = s.mem ∧ (s.loadY v).ic = s.ic ∧
    ∀ g, (s.loadY v).flag g = if g = .z then isZero v else if g = .n then sign v else s.flag g :=
  ⟨rfl, rfl, rfl, rfl, rfl, rfl, rfl, fun g => flag_setNZ (s.setY v) v g⟩

/-! ### Arithmetic, compares, bit test: A (for ADC and SBC) and the declared flags; nothing else -/

theorem adc_spec (s : State) (m : Byte) :
    (s.adc m).a = adcResult s.a m (s.flag .c) ∧ (s.adc m).x = s.x ∧ (s.adc m).y = s.y ∧ (s.adc m).sp = s.sp ∧
    (s.adc m).pc = s.pc ∧ (s.adc m).mem = s.mem ∧ (s.adc m).ic = s.ic ∧
    ∀ g, (s.adc m).flag g =
      if g = .z then isZero (adcResult s.a m (s.flag .c)) else if g = .n then sign (adcResult s.a m (s.flag .c))
      else if g = .v then adcOverflow s.a m (adcResult s.a m (s.flag .c))
      else if g = .c then adcCarry s.a m (s.flag .c) else s.flag g := by
  refine ⟨rfl, rfl, rfl, rfl, rfl, rfl, rfl, fun g => ?_⟩
  simp only [State.adc, flag_setNZ, flag_setFlag]
  rfl

theorem sbc_spec (s : State) (m : Byte) :
    (s.sbc m).a = sbcResult s.a m (s.flag .c) ∧ (s.sbc m).x = s.x ∧ (s.sbc m).y = s.y ∧ (s.sbc m).sp = s.sp ∧
    (s.sbc m).pc = s.pc ∧ (s.sbc m).mem = s.mem ∧ (s.sbc m).ic = s.ic ∧
    ∀ g, (s.sbc m).flag g =
      if g = .z then isZero (sbcResult s.a m (s.flag .c)) else if g = .n then sign (sbcResult s.a m (s.flag .c))
      else if g = .v then sbcOverflow s.a m (sbcResult s.a m (s.flag .c))
      else if g = .c then sbcCarry s.a m (s.flag .c) else s.flag g := by
  refine ⟨rfl, rfl, rfl, rfl, rfl, rfl, rfl, fun g => ?_⟩
  simp only [State.sbc, flag_setNZ, flag_setFlag]
  rfl

theorem compare_spec (s : State) (r m : Byte) :
    (s.compare r m).a = s.a ∧ (s.compare r m).x = s.x ∧ (s.compare r m).y = s.y ∧ (s.compare r m).sp = s.sp ∧
    (s.compare r m).pc = s.pc ∧ (s.compare r m).mem = s.mem ∧ (s.compare r m).ic = s.ic ∧
    ∀ g, (s.compare r m).flag g =
      if g = .z then isZero (compareResult r m) else if g = .n then sign (compareResult r m)
      else if g = .c then compareCarry r m else s.flag g := by
  refine ⟨rfl, rfl, rfl, rfl, rfl, rfl, rfl, fun g => ?_⟩
  simp only [State.compare, flag_setNZ, flag_setFlag]

theorem bitTest_spec (s : State) (m : Byte) :
    (s.bitTest m).a = s.a ∧ (s.bitTest m).x = s.x ∧ (s.bitTest m).y = s.y ∧ (s.bitTest m).sp = s.sp ∧
    (s.bitTest m).pc = s.pc ∧ (s.bitTest m).mem = s.mem ∧ (s.bitTest m).ic = s.ic ∧
    ∀ g, (s.bitTest m).flag g =
      if g = .v then m.getLsbD 6 else if g = .n then m.getLsbD 7
      else if g = .z then isZero (s.a &&& m) else s.flag g := by
  refine ⟨rfl, rfl, rfl, rfl, rfl, rfl, rfl, fun g => ?_⟩
  simp only [State.bitTest, flag_setFlag]

/-! ### Read-modify-write: one byte of memory and the declared flags; nothing else -/

theorem writeBack_spec (s : State) (ea : Addr) (v : Byte) :
    (s.writeBack ea v).a = s.a ∧ (s.writeBack ea v).x = s.x ∧ (s.writeBack ea v).y = s.y ∧
    (s.writeBack ea v).sp = s.sp ∧ (s.writeBack ea v).pc = s.pc ∧ (s.writeBack ea v).ic = s.ic ∧
    (s.writeBack ea v).mem = s.mem.write ea.toNat v ∧
    (∀ b, (s.writeBack ea v).readByte b = if b = ea then v else s.readByte b) ∧
    ∀ g, (s.writeBack ea v).flag g = if g = .z then isZero v else if g = .n then sign v else s.flag g :=
  ⟨rfl, rfl, rfl, rfl, rfl, rfl, rfl, fun b => readByte_writeByte (s.setNZ v) ea b v, fun g => flag_setNZ s v g⟩

theorem shiftMem_spec (s : State) (m : MemOperand) (f : Byte → Byte) (carry : Byte → Bool) :
    (s.shiftMem m f carry).a = s.a ∧ (s.shiftMem m f carry).x = s.x ∧ (s.shiftMem m f carry).y = s.y ∧
    (s.shiftMem m f carry).sp = s.sp ∧ (s.shiftMem m f carry).pc = s.pc ∧ (s.shiftMem m f carry).ic = s.ic ∧
    (s.shiftMem m f carry).mem = s.mem.write (s.ea m).toNat (f (s.load m)) ∧
    (∀ b, (s.shiftMem m f carry).readByte b = if b = s.ea m then f (s.load m) else s.readByte b) ∧
    ∀ g, (s.shiftMem m f carry).flag g =
      if g = .z then isZero (f (s.load m)) else if g = .n then sign (f (s.load m))
      else if g = .c then carry (s.load m) else s.flag g := by
  refine ⟨rfl, rfl, rfl, rfl, rfl, rfl, rfl, fun b => ?_, fun g => ?_⟩
  · exact (writeBack_spec (s.setFlag .c _) (s.ea m) _).2.2.2.2.2.2.2.1 b
  · have := (writeBack_spec (s.setFlag .c (carry (s.load m))) (s.ea m) (f (s.load m))).2.2.2.2.2.2.2.2 g
    simpa [State.shiftMem, flag_setFlag] using this

theorem shiftAcc_spec (s : State) (f : Byte → Byte) (carry : Byte → Bool) :
    (s.shiftAcc f carry).a = f s.a ∧ (s.shiftAcc f carry).x = s.x ∧ (s.shiftAcc f carry).y = s.y ∧
    (s.shiftAcc f carry).sp = s.sp ∧ (s.shiftAcc f carry).pc = s.pc ∧ (s.shiftAcc f carry).ic = s.ic ∧
    (s.shiftAcc f carry).mem = s.mem ∧
    ∀ g, (s.shiftAcc f carry).flag g =
      if g = .z then isZero (f s.a) else if g = .n then sign (f s.a) else if g = .c then carry s.a else s.flag g := by
  refine ⟨rfl, rfl, rfl, rfl, rfl, rfl, rfl, fun g => ?_⟩
  have := (loadA_spec (s.setFlag .c (carry s.a)) (f s.a)).2.2.2.2.2.2.2 g
  simpa [State.shiftAcc, flag_setFlag] using this

/-! ### The stack, calls and the trap -/

theorem readByte_push (s : State) (v : Byte) (b : Addr) :
    (s.push v).readByte b = if b = stackAddr s.sp then v else s.readByte b := readByte_writeByte s _ b v

@[simp] theorem flag_push (s : State) (v : Byte) (g : Flag) : (s.push v).flag g = s.flag g := rfl

@[simp] theorem readByte_popped (s : State) (b : Addr) : s.popped.readByte b = s.readByte b := rfl

@[simp] theorem flag_popped (s : State) (g : Flag) : s.popped.flag g = s.flag g := rfl

theorem call_spec (s : State) (target : Addr) :
    (s.call target).pc = target ∧ (s.call target).sp = s.sp - 1 - 1 ∧ (s.call target).a = s.a ∧
    (s.call target).x = s.x ∧ (s.call target).y = s.y ∧ (s.call target).sr = s.sr ∧ (s.call target).ic = s.ic ∧
    ∀ b, (s.call target).readByte b =
      if b = stackAddr (s.sp - 1) then loByte (s.pc - 1)
      else if b = stackAddr s.sp then hiByte (s.pc - 1) else s.readByte b := by
  refine ⟨rfl, rfl, rfl, rfl, rfl, rfl, rfl, fun b => ?_⟩
  show ((s.push (hiByte (s.pc - 1))).push (loByte (s.pc - 1))).readByte b = _
  simp only [readByte_push, push_sp]

theorem returnFromCall_spec (s : State) :
    s.returnFromCall.pc = makeWord (s.readByte (stackAddr (s.sp + 1 + 1))) (s.readByte (stackAddr (s.sp + 1))) + 1 ∧
    s.returnFromCall.sp = s.sp + 1 + 1 ∧ s.returnFromCall.a = s.a ∧ s.returnFromCall.x = s.x ∧
    s.returnFromCall.y = s.y ∧ s.returnFromCall.sr = s.sr ∧ s.returnFromCall.ic = s.ic ∧
    s.returnFromCall.mem = s.mem := ⟨rfl, rfl, rfl, rfl, rfl, rfl, rfl, rfl⟩

/-- The three pushes of the trap as one read. -/
theorem readByte_enterTrap (s : State) (b : Addr) :
    s.enterTrap.readByte b =
      if b = stackAddr (s.sp - 1 - 1) then pushedStatus s.sr
      else if b = stackAddr (s.sp - 1) then loByte (s.pc + 1)
      else if b = stackAddr s.sp then hiByte (s.pc + 1) else s.readByte b := by
  show (((s.push (hiByte (s.pc + 1))).push (loByte (s.pc + 1))).push (pushedStatus s.sr)).readByte b = _
  simp only [readByte_push, push_sp]

/-- Everything taking the trap does (47_flag_brk_nop.md R177). The vector is outside the stack page, so what it holds is
what it held before. -/
theorem enterTrap_spec (s : State) :
    s.enterTrap.pc = makeWord (s.readByte (brkVector + 1)) (s.readByte brkVector) ∧
    s.enterTrap.sp = s.sp - 1 - 1 - 1 ∧ s.enterTrap.a = s.a ∧ s.enterTrap.x = s.x ∧ s.enterTrap.y = s.y ∧
    s.enterTrap.ic = s.ic ∧ ∀ g, s.enterTrap.flag g = if g = .i then true else s.flag g := by
  refine ⟨?_, by simp [State.enterTrap], by simp [State.enterTrap], by simp [State.enterTrap], by simp [State.enterTrap],
    by simp [State.enterTrap], fun g => ?_⟩
  case refine_2 => exact flag_setFlag (((s.push _).push _).push _) .i g true
  have hp : s.enterTrap.pc = makeWord (s.enterTrap.readByte (brkVector + 1)) (s.enterTrap.readByte brkVector) := rfl
  have n := fun p => stackAddr_ne_vector p
  rw [hp, readByte_enterTrap, readByte_enterTrap]
  simp only [if_neg (n _).1.symm, if_neg (n _).2.symm]

theorem returnFromTrap_spec (s : State) :
    s.returnFromTrap.sr = loadedStatus (s.readByte (stackAddr (s.sp + 1))) ∧
    s.returnFromTrap.pc =
      makeWord (s.readByte (stackAddr (s.sp + 1 + 1 + 1))) (s.readByte (stackAddr (s.sp + 1 + 1))) ∧
    s.returnFromTrap.sp = s.sp + 1 + 1 + 1 ∧ s.returnFromTrap.a = s.a ∧ s.returnFromTrap.x = s.x ∧
    s.returnFromTrap.y = s.y ∧ s.returnFromTrap.ic = s.ic ∧ s.returnFromTrap.mem = s.mem :=
  ⟨rfl, rfl, rfl, rfl, rfl, rfl, rfl, rfl⟩

/-- A branch writes PC, and only when its condition holds (46_jump_branch.md R155). -/
theorem branchIf_spec (s : State) (cond : Bool) (rel : Byte) :
    (s.branchIf cond rel).pc = (if cond then s.pc + signExtend rel else s.pc) ∧ (s.branchIf cond rel).a = s.a ∧
    (s.branchIf cond rel).x = s.x ∧ (s.branchIf cond rel).y = s.y ∧ (s.branchIf cond rel).sp = s.sp ∧
    (s.branchIf cond rel).sr = s.sr ∧ (s.branchIf cond rel).mem = s.mem ∧ (s.branchIf cond rel).ic = s.ic := by
  cases cond <;> exact ⟨rfl, rfl, rfl, rfl, rfl, rfl, rfl, rfl⟩

end Sys2Proof.Machine
end

