-- ==== Sys2Proof/Laws/Host.lean ====
section
/-! SUPPORT. For each host operation on memory, once, what it leaves alone (70_reset_and_hazards.md R208, R209, R216). -/

namespace Sys2Proof.Machine

/-- Storing bytes changes no register and no count. -/
theorem writeBytes_registers (bytes : List Byte) (s : State) (dest : Addr) :
    (s.writeBytes dest bytes).registers = s.registers ∧ (s.writeBytes dest bytes).ic = s.ic := by
  induction bytes generalizing s dest with
  | nil => exact ⟨rfl, rfl⟩
  | cons b bs ih => exact ih (s.writeByte dest b) (dest + 1)

/-- Storing bytes changes no byte outside the range stored to. -/
theorem readByte_writeBytes_outside (bytes : List Byte) (s : State) (dest addr : Addr)
    (h : ∀ k, k < bytes.length → dest + BitVec.ofNat 16 k ≠ addr) :
    (s.writeBytes dest bytes).readByte addr = s.readByte addr := by
  induction bytes generalizing s dest with
  | nil => rfl
  | cons b bs ih =>
    have h0 := h 0 (by simp)
    simp only [State.writeBytes]
    rw [ih, readByte_writeByte, if_neg]
    · intro e; apply h0; simp [e]
    · intro k hk e
      refine h (k + 1) (by simp; omega) (e ▸ BitVec.eq_of_toNat_eq ?_)
      simp [BitVec.toNat_add]; omega

theorem hostWriteBytes_registers (s : State) (bytes : List Byte) (dest : Nat) :
    (s.hostWriteBytes bytes dest).registers = s.registers ∧ (s.hostWriteBytes bytes dest).ic = s.ic :=
  writeBytes_registers bytes s _

theorem hostFill_registers (s : State) (start stop : Nat) (v : Byte) :
    (s.hostFill start stop v).registers = s.registers ∧ (s.hostFill start stop v).ic = s.ic :=
  hostWriteBytes_registers s _ start

/-- Clearing memory before a load changes no register and no count. -/
theorem nsfClear_registers (s : State) : s.nsfClear.registers = s.registers ∧ s.nsfClear.ic = s.ic := by
  unfold State.nsfClear
  constructor
  · rw [(hostWriteBytes_registers _ _ _).1, (hostWriteBytes_registers _ _ _).1, (hostFill_registers _ _ _ _).1,
      (hostFill_registers _ _ _ _).1, (hostFill_registers _ _ _ _).1]
  · rw [(hostWriteBytes_registers _ _ _).2, (hostWriteBytes_registers _ _ _).2, (hostFill_registers _ _ _ _).2,
      (hostFill_registers _ _ _ _).2, (hostFill_registers _ _ _ _).2]

/-- Two states with the same registers agree in each. -/
theorem registers_eq_iff (s t : State) :
    t.registers = s.registers ↔ t.pc = s.pc ∧ t.a = s.a ∧ t.x = s.x ∧ t.y = s.y ∧ t.sr = s.sr ∧ t.sp = s.sp := by
  simp [State.registers]

/-- What placing a loaded file does to the registers and the count. -/
theorem nsfPlace_spec (s : State) (h : NsfHeader) (body : List Byte) :
    (s.nsfPlace h body).pc = h.initAddr ∧ (s.nsfPlace h body).a = h.startingSong - 1 ∧
    (s.nsfPlace h body).x = (if h.mode.getLsbD 0 then 1 else 0) ∧ (s.nsfPlace h body).y = s.y ∧
    (s.nsfPlace h body).sp = s.sp ∧ (s.nsfPlace h body).sr = s.sr ∧ (s.nsfPlace h body).ic = s.ic := by
  have H := hostWriteBytes_registers ((s.hostWriteRegister (.x (if h.mode.getLsbD 0 then 1 else 0))).hostWriteRegister
    (.a (h.startingSong - 1))) body h.loadAddr.toNat
  rw [registers_eq_iff] at H
  exact ⟨rfl, H.1.2.1, H.1.2.2.1, H.1.2.2.2.1, H.1.2.2.2.2.2, H.1.2.2.2.2.1, H.2⟩

end Sys2Proof.Machine
end

