-- ==== Sys2Proof/Laws/PerInstr.lean ====
section
/-! SUPPORT. Per-instruction laws: family `Encoding`, one lemma per constructor of Instr. -/

namespace Sys2Proof.Laws.Encoding

/-- The instruction's mnemonic has its mode (30_encoding.md R59), and its bytes are as many as its mode says (R51, R54). -/
def Statement (i : Instr) : Prop := i.WellFormed ∧ (encode i).length = i.length

theorem ldaImm (imm : Byte) : Statement (.ldaImm imm) := ⟨rfl, rfl⟩
theorem ldaZp (zp : Byte) : Statement (.ldaZp zp) := ⟨rfl, rfl⟩
theorem ldaZpx (zp : Byte) : Statement (.ldaZpx zp) := ⟨rfl, rfl⟩
theorem ldaAbs (addr : Addr) : Statement (.ldaAbs addr) := ⟨rfl, rfl⟩
theorem ldaAbx (base : Addr) : Statement (.ldaAbx base) := ⟨rfl, rfl⟩
theorem ldaAby (base : Addr) : Statement (.ldaAby base) := ⟨rfl, rfl⟩
theorem ldaIzx (zp : Byte) : Statement (.ldaIzx zp) := ⟨rfl, rfl⟩
theorem ldaIzy (zp : Byte) : Statement (.ldaIzy zp) := ⟨rfl, rfl⟩
theorem ldxImm (imm : Byte) : Statement (.ldxImm imm) := ⟨rfl, rfl⟩
theorem ldxZp (zp : Byte) : Statement (.ldxZp zp) := ⟨rfl, rfl⟩
theorem ldxZpy (zp : Byte) : Statement (.ldxZpy zp) := ⟨rfl, rfl⟩
theorem ldxAbs (addr : Addr) : Statement (.ldxAbs addr) := ⟨rfl, rfl⟩
theorem ldxAby (base : Addr) : Statement (.ldxAby base) := ⟨rfl, rfl⟩
theorem ldyImm (imm : Byte) : Statement (.ldyImm imm) := ⟨rfl, rfl⟩
theorem ldyZp (zp : Byte) : Statement (.ldyZp zp) := ⟨rfl, rfl⟩
theorem ldyZpx (zp : Byte) : Statement (.ldyZpx zp) := ⟨rfl, rfl⟩
theorem ldyAbs (addr : Addr) : Statement (.ldyAbs addr) := ⟨rfl, rfl⟩
theorem ldyAbx (base : Addr) : Statement (.ldyAbx base) := ⟨rfl, rfl⟩
theorem staZp (zp : Byte) : Statement (.staZp zp) := ⟨rfl, rfl⟩
theorem staZpx (zp : Byte) : Statement (.staZpx zp) := ⟨rfl, rfl⟩
theorem staAbs (addr : Addr) : Statement (.staAbs addr) := ⟨rfl, rfl⟩
theorem staAbx (base : Addr) : Statement (.staAbx base) := ⟨rfl, rfl⟩
theorem staAby (base : Addr) : Statement (.staAby base) := ⟨rfl, rfl⟩
theorem staIzx (zp : Byte) : Statement (.staIzx zp) := ⟨rfl, rfl⟩
theorem staIzy (zp : Byte) : Statement (.staIzy zp) := ⟨rfl, rfl⟩
theorem stxZp (zp : Byte) : Statement (.stxZp zp) := ⟨rfl, rfl⟩
theorem stxZpy (zp : Byte) : Statement (.stxZpy zp) := ⟨rfl, rfl⟩
theorem stxAbs (addr : Addr) : Statement (.stxAbs addr) := ⟨rfl, rfl⟩
theorem styZp (zp : Byte) : Statement (.styZp zp) := ⟨rfl, rfl⟩
theorem styZpx (zp : Byte) : Statement (.styZpx zp) := ⟨rfl, rfl⟩
theorem styAbs (addr : Addr) : Statement (.styAbs addr) := ⟨rfl, rfl⟩
theorem tax : Statement (.tax) := ⟨rfl, rfl⟩
theorem tay : Statement (.tay) := ⟨rfl, rfl⟩
theorem tsx : Statement (.tsx) := ⟨rfl, rfl⟩
theorem txa : Statement (.txa) := ⟨rfl, rfl⟩
theorem tya : Statement (.tya) := ⟨rfl, rfl⟩
theorem txs : Statement (.txs) := ⟨rfl, rfl⟩
theorem pha : Statement (.pha) := ⟨rfl, rfl⟩
theorem php : Statement (.php) := ⟨rfl, rfl⟩
theorem pla : Statement (.pla) := ⟨rfl, rfl⟩
theorem plp : Statement (.plp) := ⟨rfl, rfl⟩
theorem andImm (imm : Byte) : Statement (.andImm imm) := ⟨rfl, rfl⟩
theorem andZp (zp : Byte) : Statement (.andZp zp) := ⟨rfl, rfl⟩
theorem andZpx (zp : Byte) : Statement (.andZpx zp) := ⟨rfl, rfl⟩
theorem andAbs (addr : Addr) : Statement (.andAbs addr) := ⟨rfl, rfl⟩
theorem andAbx (base : Addr) : Statement (.andAbx base) := ⟨rfl, rfl⟩
theorem andAby (base : Addr) : Statement (.andAby base) := ⟨rfl, rfl⟩
theorem andIzx (zp : Byte) : Statement (.andIzx zp) := ⟨rfl, rfl⟩
theorem andIzy (zp : Byte) : Statement (.andIzy zp) := ⟨rfl, rfl⟩
theorem oraImm (imm : Byte) : Statement (.oraImm imm) := ⟨rfl, rfl⟩
theorem oraZp (zp : Byte) : Statement (.oraZp zp) := ⟨rfl, rfl⟩
theorem oraZpx (zp : Byte) : Statement (.oraZpx zp) := ⟨rfl, rfl⟩
theorem oraAbs (addr : Addr) : Statement (.oraAbs addr) := ⟨rfl, rfl⟩
theorem oraAbx (base : Addr) : Statement (.oraAbx base) := ⟨rfl, rfl⟩
theorem oraAby (base : Addr) : Statement (.oraAby base) := ⟨rfl, rfl⟩
theorem oraIzx (zp : Byte) : Statement (.oraIzx zp) := ⟨rfl, rfl⟩
theorem oraIzy (zp : Byte) : Statement (.oraIzy zp) := ⟨rfl, rfl⟩
theorem eorImm (imm : Byte) : Statement (.eorImm imm) := ⟨rfl, rfl⟩
theorem eorZp (zp : Byte) : Statement (.eorZp zp) := ⟨rfl, rfl⟩
theorem eorZpx (zp : Byte) : Statement (.eorZpx zp) := ⟨rfl, rfl⟩
theorem eorAbs (addr : Addr) : Statement (.eorAbs addr) := ⟨rfl, rfl⟩
theorem eorAbx (base : Addr) : Statement (.eorAbx base) := ⟨rfl, rfl⟩
theorem eorAby (base : Addr) : Statement (.eorAby base) := ⟨rfl, rfl⟩
theorem eorIzx (zp : Byte) : Statement (.eorIzx zp) := ⟨rfl, rfl⟩
theorem eorIzy (zp : Byte) : Statement (.eorIzy zp) := ⟨rfl, rfl⟩
theorem bitZp (zp : Byte) : Statement (.bitZp zp) := ⟨rfl, rfl⟩
theorem bitAbs (addr : Addr) : Statement (.bitAbs addr) := ⟨rfl, rfl⟩
theorem adcImm (imm : Byte) : Statement (.adcImm imm) := ⟨rfl, rfl⟩
theorem adcZp (zp : Byte) : Statement (.adcZp zp) := ⟨rfl, rfl⟩
theorem adcZpx (zp : Byte) : Statement (.adcZpx zp) := ⟨rfl, rfl⟩
theorem adcAbs (addr : Addr) : Statement (.adcAbs addr) := ⟨rfl, rfl⟩
theorem adcAbx (base : Addr) : Statement (.adcAbx base) := ⟨rfl, rfl⟩
theorem adcAby (base : Addr) : Statement (.adcAby base) := ⟨rfl, rfl⟩
theorem adcIzx (zp : Byte) : Statement (.adcIzx zp) := ⟨rfl, rfl⟩
theorem adcIzy (zp : Byte) : Statement (.adcIzy zp) := ⟨rfl, rfl⟩
theorem sbcImm (imm : Byte) : Statement (.sbcImm imm) := ⟨rfl, rfl⟩
theorem sbcZp (zp : Byte) : Statement (.sbcZp zp) := ⟨rfl, rfl⟩
theorem sbcZpx (zp : Byte) : Statement (.sbcZpx zp) := ⟨rfl, rfl⟩
theorem sbcAbs (addr : Addr) : Statement (.sbcAbs addr) := ⟨rfl, rfl⟩
theorem sbcAbx (base : Addr) : Statement (.sbcAbx base) := ⟨rfl, rfl⟩
theorem sbcAby (base : Addr) : Statement (.sbcAby base) := ⟨rfl, rfl⟩
theorem sbcIzx (zp : Byte) : Statement (.sbcIzx zp) := ⟨rfl, rfl⟩
theorem sbcIzy (zp : Byte) : Statement (.sbcIzy zp) := ⟨rfl, rfl⟩
theorem cmpImm (imm : Byte) : Statement (.cmpImm imm) := ⟨rfl, rfl⟩
theorem cmpZp (zp : Byte) : Statement (.cmpZp zp) := ⟨rfl, rfl⟩
theorem cmpZpx (zp : Byte) : Statement (.cmpZpx zp) := ⟨rfl, rfl⟩
theorem cmpAbs (addr : Addr) : Statement (.cmpAbs addr) := ⟨rfl, rfl⟩
theorem cmpAbx (base : Addr) : Statement (.cmpAbx base) := ⟨rfl, rfl⟩
theorem cmpAby (base : Addr) : Statement (.cmpAby base) := ⟨rfl, rfl⟩
theorem cmpIzx (zp : Byte) : Statement (.cmpIzx zp) := ⟨rfl, rfl⟩
theorem cmpIzy (zp : Byte) : Statement (.cmpIzy zp) := ⟨rfl, rfl⟩
theorem cpxImm (imm : Byte) : Statement (.cpxImm imm) := ⟨rfl, rfl⟩
theorem cpxZp (zp : Byte) : Statement (.cpxZp zp) := ⟨rfl, rfl⟩
theorem cpxAbs (addr : Addr) : Statement (.cpxAbs addr) := ⟨rfl, rfl⟩
theorem cpyImm (imm : Byte) : Statement (.cpyImm imm) := ⟨rfl, rfl⟩
theorem cpyZp (zp : Byte) : Statement (.cpyZp zp) := ⟨rfl, rfl⟩
theorem cpyAbs (addr : Addr) : Statement (.cpyAbs addr) := ⟨rfl, rfl⟩
theorem incZp (zp : Byte) : Statement (.incZp zp) := ⟨rfl, rfl⟩
theorem incZpx (zp : Byte) : Statement (.incZpx zp) := ⟨rfl, rfl⟩
theorem incAbs (addr : Addr) : Statement (.incAbs addr) := ⟨rfl, rfl⟩
theorem incAbx (base : Addr) : Statement (.incAbx base) := ⟨rfl, rfl⟩
theorem decZp (zp : Byte) : Statement (.decZp zp) := ⟨rfl, rfl⟩
theorem decZpx (zp : Byte) : Statement (.decZpx zp) := ⟨rfl, rfl⟩
theorem decAbs (addr : Addr) : Statement (.decAbs addr) := ⟨rfl, rfl⟩
theorem decAbx (base : Addr) : Statement (.decAbx base) := ⟨rfl, rfl⟩
theorem inx : Statement (.inx) := ⟨rfl, rfl⟩
theorem iny : Statement (.iny) := ⟨rfl, rfl⟩
theorem dex : Statement (.dex) := ⟨rfl, rfl⟩
theorem dey : Statement (.dey) := ⟨rfl, rfl⟩
theorem aslAcc : Statement (.aslAcc) := ⟨rfl, rfl⟩
theorem aslZp (zp : Byte) : Statement (.aslZp zp) := ⟨rfl, rfl⟩
theorem aslZpx (zp : Byte) : Statement (.aslZpx zp) := ⟨rfl, rfl⟩
theorem aslAbs (addr : Addr) : Statement (.aslAbs addr) := ⟨rfl, rfl⟩
theorem aslAbx (base : Addr) : Statement (.aslAbx base) := ⟨rfl, rfl⟩
theorem lsrAcc : Statement (.lsrAcc) := ⟨rfl, rfl⟩
theorem lsrZp (zp : Byte) : Statement (.lsrZp zp) := ⟨rfl, rfl⟩
theorem lsrZpx (zp : Byte) : Statement (.lsrZpx zp) := ⟨rfl, rfl⟩
theorem lsrAbs (addr : Addr) : Statement (.lsrAbs addr) := ⟨rfl, rfl⟩
theorem lsrAbx (base : Addr) : Statement (.lsrAbx base) := ⟨rfl, rfl⟩
theorem rolAcc : Statement (.rolAcc) := ⟨rfl, rfl⟩
theorem rolZp (zp : Byte) : Statement (.rolZp zp) := ⟨rfl, rfl⟩
theorem rolZpx (zp : Byte) : Statement (.rolZpx zp) := ⟨rfl, rfl⟩
theorem rolAbs (addr : Addr) : Statement (.rolAbs addr) := ⟨rfl, rfl⟩
theorem rolAbx (base : Addr) : Statement (.rolAbx base) := ⟨rfl, rfl⟩
theorem rorAcc : Statement (.rorAcc) := ⟨rfl, rfl⟩
theorem rorZp (zp : Byte) : Statement (.rorZp zp) := ⟨rfl, rfl⟩
theorem rorZpx (zp : Byte) : Statement (.rorZpx zp) := ⟨rfl, rfl⟩
theorem rorAbs (addr : Addr) : Statement (.rorAbs addr) := ⟨rfl, rfl⟩
theorem rorAbx (base : Addr) : Statement (.rorAbx base) := ⟨rfl, rfl⟩
theorem jmpAbs (addr : Addr) : Statement (.jmpAbs addr) := ⟨rfl, rfl⟩
theorem jmpInd (ptr : Addr) : Statement (.jmpInd ptr) := ⟨rfl, rfl⟩
theorem jsrAbs (addr : Addr) : Statement (.jsrAbs addr) := ⟨rfl, rfl⟩
theorem rts : Statement (.rts) := ⟨rfl, rfl⟩
theorem rti : Statement (.rti) := ⟨rfl, rfl⟩
theorem bcc (rel : Byte) : Statement (.bcc rel) := ⟨rfl, rfl⟩
theorem bcs (rel : Byte) : Statement (.bcs rel) := ⟨rfl, rfl⟩
theorem bne (rel : Byte) : Statement (.bne rel) := ⟨rfl, rfl⟩
theorem beq (rel : Byte) : Statement (.beq rel) := ⟨rfl, rfl⟩
theorem bpl (rel : Byte) : Statement (.bpl rel) := ⟨rfl, rfl⟩
theorem bmi (rel : Byte) : Statement (.bmi rel) := ⟨rfl, rfl⟩
theorem bvc (rel : Byte) : Statement (.bvc rel) := ⟨rfl, rfl⟩
theorem bvs (rel : Byte) : Statement (.bvs rel) := ⟨rfl, rfl⟩
theorem clc : Statement (.clc) := ⟨rfl, rfl⟩
theorem sec : Statement (.sec) := ⟨rfl, rfl⟩
theorem cld : Statement (.cld) := ⟨rfl, rfl⟩
theorem sed : Statement (.sed) := ⟨rfl, rfl⟩
theorem cli : Statement (.cli) := ⟨rfl, rfl⟩
theorem sei : Statement (.sei) := ⟨rfl, rfl⟩
theorem clv : Statement (.clv) := ⟨rfl, rfl⟩
theorem brk : Statement (.brk) := ⟨rfl, rfl⟩
theorem nop : Statement (.nop) := ⟨rfl, rfl⟩

end Sys2Proof.Laws.Encoding
end

