-- ==== Sys2Proof/Laws/Step.lean ====
section
/-! SUPPORT. Once, what a step can do: when fetching fails and what it gives otherwise, that every meaning answers a next
state, and the inversion of `step` (40_step_addressing_flags.md R70, R96). -/

namespace Sys2Proof.Machine

/-- Fetching fails exactly when the byte at PC is unassigned: the window is never too short (30_encoding.md R54, R56). -/
theorem fetch_error_iff (s : State) :
    (∃ r, s.fetch = .error r) ↔ dispatch (s.readByte s.pc) = none := by
  unfold State.fetch State.fetchWindow decode
  rcases h : dispatch (s.readByte s.pc) with _ | (_ | _ | _) <;> simp [h]

/-- Fetching depends on memory and PC only. -/
theorem fetch_congr {s t : State} (hm : t.mem = s.mem) (hp : t.pc = s.pc) : t.fetch = s.fetch := by
  simp [State.fetch, State.fetchWindow, readByte_congr hm, hp]

/-- Every meaning of this model answers a next state (40_step_addressing_flags.md R96). -/
theorem exec_next (i : Instr) (s : State) : ∃ t, exec i s = .next t := by
  cases i <;> exact ⟨_, rfl⟩

/-- Inversion of `step`: a next state comes from fetching an instruction, running it past its bytes, and counting. -/
theorem step_next_iff (s t : State) :
    step s = .next t ↔
      ∃ i u, s.fetch = .ok i ∧ exec i (s.advancePc i.length) = .next u ∧ t = u.countInstruction := by
  unfold step
  cases hf : s.fetch with
  | error r => simp
  | ok i =>
    obtain ⟨u, hu⟩ := exec_next i (s.advancePc i.length)
    simp [hu, eq_comm]

/-- A step stops exactly when fetching fails, and then with the one fault of the machine (60_exceptions.md R180). -/
theorem step_of_fetch_error (s : State) (r : Reject) (h : s.fetch = .error r) :
    step s = .fault (.unknownOpcode (s.readByte s.pc) s.pc) := by
  simp [step, h]

theorem step_of_fetch_ok (s : State) (i : Instr) (h : s.fetch = .ok i) : ∃ t, step s = .next t := by
  obtain ⟨u, hu⟩ := exec_next i (s.advancePc i.length)
  exact ⟨_, (step_next_iff s _).2 ⟨i, u, h, hu, rfl⟩⟩

end Sys2Proof.Machine
end

