-- ==== Sys2Proof/Tests/Slice0.lean ====
section
/-! SUPPORT. The model's own tests: ill-formed pairs refused, every constructor's decoding, one step of each instruction on
vectors of 95_test_vectors.md, and for each statement with hypotheses a witness that meets them. -/

namespace Sys2Proof.Tests

open Sys2Proof Sys2Proof.Machine

set_option Elab.async false

/-! ### Well-formedness: one ill-formed pair for each check (30_encoding.md R59) -/

theorem test_wf_store_has_no_immediate : legalPair .sta .imm = false := by decide
theorem test_wf_stx_has_no_zpx : legalPair .stx .zpx = false := by decide
theorem test_wf_ldy_has_no_aby : legalPair .ldy .aby = false := by decide
theorem test_wf_inc_has_no_accumulator : legalPair .inc .acc = false := by decide
theorem test_wf_cpx_has_no_indexed_form : legalPair .cpx .abx = false := by decide
theorem test_wf_bit_has_no_immediate : legalPair .bit .imm = false := by decide
theorem test_wf_jmp_has_no_izx : legalPair .jmp .izx = false := by decide
theorem test_wf_jsr_has_no_indirect : legalPair .jsr .ind = false := by decide
theorem test_wf_branch_is_relative_only : legalPair .bcc .imp = false := by decide
theorem test_wf_implied_takes_no_operand : legalPair .brk .imm = false := by decide
theorem test_matrix_has_151_entries : (opcodeMatrix.flatten.filter (·.isSome)).length = 151 := by decide +kernel

/-! ### Decoding: the word of every row, opcode bytes from 30_encoding.md R55, operand bytes 0x34 and 0x12 (R51, R52) -/

/-- What the decoder reads from table words, each given with its number of bits. -/
def reads (words : List (Nat × Nat)) : List (Option Instr) := words.map fun w => decodeTableWord w.1 w.2

theorem test_decode_LoadStore_1 :
    reads [(16, 0x34A1), (16, 0x34A5), (16, 0x34A9), (24, 0x1234AD), (16, 0x34B1), (16, 0x34B5), (24, 0x1234B9), (24,
      0x1234BD), (16, 0x34A2), (16, 0x34A6)] =
      [some (.ldaIzx 0x34), some (.ldaZp 0x34), some (.ldaImm 0x34), some (.ldaAbs 0x1234), some (.ldaIzy 0x34),
      some (.ldaZpx 0x34), some (.ldaAby 0x1234), some (.ldaAbx 0x1234), some (.ldxImm 0x34),
      some (.ldxZp 0x34)] := by decide +kernel

theorem test_decode_LoadStore_2 :
    reads [(24, 0x1234AE), (16, 0x34B6), (24, 0x1234BE), (16, 0x34A0), (16, 0x34A4), (24, 0x1234AC), (16, 0x34B4), (24,
      0x1234BC), (16, 0x3481), (16, 0x3485)] =
      [some (.ldxAbs 0x1234), some (.ldxZpy 0x34), some (.ldxAby 0x1234), some (.ldyImm 0x34), some (.ldyZp 0x34),
      some (.ldyAbs 0x1234), some (.ldyZpx 0x34), some (.ldyAbx 0x1234), some (.staIzx 0x34),
      some (.staZp 0x34)] := by decide +kernel

theorem test_decode_LoadStore_3 :
    reads [(24, 0x12348D), (16, 0x3491), (16, 0x3495), (24, 0x123499), (24, 0x12349D), (16, 0x3486), (24, 0x12348E),
      (16, 0x3496), (16, 0x3484), (24, 0x12348C)] =
      [some (.staAbs 0x1234), some (.staIzy 0x34), some (.staZpx 0x34), some (.staAby 0x1234), some (.staAbx 0x1234),
      some (.stxZp 0x34), some (.stxAbs 0x1234), some (.stxZpy 0x34), some (.styZp 0x34),
      some (.styAbs 0x1234)] := by decide +kernel

theorem test_decode_LoadStore_4 :
    reads [(16, 0x3494)] =
      [some (.styZpx 0x34)] := by decide +kernel

theorem test_decode_TransferStack :
    reads [(8, 0xAA), (8, 0xA8), (8, 0xBA), (8, 0x8A), (8, 0x98), (8, 0x9A), (8, 0x48), (8, 0x08), (8, 0x68), (8, 0x28)] =
      [some .tax, some .tay, some .tsx, some .txa, some .tya, some .txs, some .pha, some .php, some .pla,
      some .plp] := by decide +kernel

theorem test_decode_LogicalBit_1 :
    reads [(16, 0x3421), (16, 0x3425), (16, 0x3429), (24, 0x12342D), (16, 0x3431), (16, 0x3435), (24, 0x123439), (24,
      0x12343D), (16, 0x3401), (16, 0x3405)] =
      [some (.andIzx 0x34), some (.andZp 0x34), some (.andImm 0x34), some (.andAbs 0x1234), some (.andIzy 0x34),
      some (.andZpx 0x34), some (.andAby 0x1234), some (.andAbx 0x1234), some (.oraIzx 0x34),
      some (.oraZp 0x34)] := by decide +kernel

theorem test_decode_LogicalBit_2 :
    reads [(16, 0x3409), (24, 0x12340D), (16, 0x3411), (16, 0x3415), (24, 0x123419), (24, 0x12341D), (16, 0x3441), (16,
      0x3445), (16, 0x3449), (24, 0x12344D)] =
      [some (.oraImm 0x34), some (.oraAbs 0x1234), some (.oraIzy 0x34), some (.oraZpx 0x34), some (.oraAby 0x1234),
      some (.oraAbx 0x1234), some (.eorIzx 0x34), some (.eorZp 0x34), some (.eorImm 0x34),
      some (.eorAbs 0x1234)] := by decide +kernel

theorem test_decode_LogicalBit_3 :
    reads [(16, 0x3451), (16, 0x3455), (24, 0x123459), (24, 0x12345D), (16, 0x3424), (24, 0x12342C)] =
      [some (.eorIzy 0x34), some (.eorZpx 0x34), some (.eorAby 0x1234), some (.eorAbx 0x1234), some (.bitZp 0x34),
      some (.bitAbs 0x1234)] := by decide +kernel

theorem test_decode_Arithmetic_1 :
    reads [(16, 0x3461), (16, 0x3465), (16, 0x3469), (24, 0x12346D), (16, 0x3471), (16, 0x3475), (24, 0x123479), (24,
      0x12347D), (16, 0x34E1), (16, 0x34E5)] =
      [some (.adcIzx 0x34), some (.adcZp 0x34), some (.adcImm 0x34), some (.adcAbs 0x1234), some (.adcIzy 0x34),
      some (.adcZpx 0x34), some (.adcAby 0x1234), some (.adcAbx 0x1234), some (.sbcIzx 0x34),
      some (.sbcZp 0x34)] := by decide +kernel

theorem test_decode_Arithmetic_2 :
    reads [(16, 0x34E9), (24, 0x1234ED), (16, 0x34F1), (16, 0x34F5), (24, 0x1234F9), (24, 0x1234FD), (16, 0x34C1), (16,
      0x34C5), (16, 0x34C9), (24, 0x1234CD)] =
      [some (.sbcImm 0x34), some (.sbcAbs 0x1234), some (.sbcIzy 0x34), some (.sbcZpx 0x34), some (.sbcAby 0x1234),
      some (.sbcAbx 0x1234), some (.cmpIzx 0x34), some (.cmpZp 0x34), some (.cmpImm 0x34),
      some (.cmpAbs 0x1234)] := by decide +kernel

theorem test_decode_Arithmetic_3 :
    reads [(16, 0x34D1), (16, 0x34D5), (24, 0x1234D9), (24, 0x1234DD), (16, 0x34E0), (16, 0x34E4), (24, 0x1234EC), (16,
      0x34C0), (16, 0x34C4), (24, 0x1234CC)] =
      [some (.cmpIzy 0x34), some (.cmpZpx 0x34), some (.cmpAby 0x1234), some (.cmpAbx 0x1234), some (.cpxImm 0x34),
      some (.cpxZp 0x34), some (.cpxAbs 0x1234), some (.cpyImm 0x34), some (.cpyZp 0x34),
      some (.cpyAbs 0x1234)] := by decide +kernel

theorem test_decode_IncDecShift_1 :
    reads [(16, 0x34E6), (24, 0x1234EE), (16, 0x34F6), (24, 0x1234FE), (16, 0x34C6), (24, 0x1234CE), (16, 0x34D6), (24,
      0x1234DE), (8, 0xE8), (8, 0xC8)] =
      [some (.incZp 0x34), some (.incAbs 0x1234), some (.incZpx 0x34), some (.incAbx 0x1234), some (.decZp 0x34),
      some (.decAbs 0x1234), some (.decZpx 0x34), some (.decAbx 0x1234), some .inx, some .iny] := by decide +kernel

theorem test_decode_IncDecShift_2 :
    reads [(8, 0xCA), (8, 0x88), (16, 0x3406), (8, 0x0A), (24, 0x12340E), (16, 0x3416), (24, 0x12341E), (16, 0x3446),
      (8, 0x4A), (24, 0x12344E)] =
      [some .dex, some .dey, some (.aslZp 0x34), some .aslAcc, some (.aslAbs 0x1234), some (.aslZpx 0x34),
      some (.aslAbx 0x1234), some (.lsrZp 0x34), some .lsrAcc, some (.lsrAbs 0x1234)] := by decide +kernel

theorem test_decode_IncDecShift_3 :
    reads [(16, 0x3456), (24, 0x12345E), (16, 0x3426), (8, 0x2A), (24, 0x12342E), (16, 0x3436), (24, 0x12343E), (16,
      0x3466), (8, 0x6A), (24, 0x12346E)] =
      [some (.lsrZpx 0x34), some (.lsrAbx 0x1234), some (.rolZp 0x34), some .rolAcc, some (.rolAbs 0x1234),
      some (.rolZpx 0x34), some (.rolAbx 0x1234), some (.rorZp 0x34), some .rorAcc,
      some (.rorAbs 0x1234)] := by decide +kernel

theorem test_decode_IncDecShift_4 :
    reads [(16, 0x3476), (24, 0x12347E)] =
      [some (.rorZpx 0x34), some (.rorAbx 0x1234)] := by decide +kernel

theorem test_decode_JumpBranch_1 :
    reads [(24, 0x12344C), (24, 0x12346C), (24, 0x123420), (8, 0x60), (8, 0x40), (16, 0x3490), (16, 0x34B0), (16,
      0x34D0), (16, 0x34F0), (16, 0x3410)] =
      [some (.jmpAbs 0x1234), some (.jmpInd 0x1234), some (.jsrAbs 0x1234), some .rts, some .rti, some (.bcc 0x34),
      some (.bcs 0x34), some (.bne 0x34), some (.beq 0x34), some (.bpl 0x34)] := by decide +kernel

theorem test_decode_JumpBranch_2 :
    reads [(16, 0x3430), (16, 0x3450), (16, 0x3470)] =
      [some (.bmi 0x34), some (.bvc 0x34), some (.bvs 0x34)] := by decide +kernel

theorem test_decode_FlagBrkNop :
    reads [(8, 0x18), (8, 0x38), (8, 0xD8), (8, 0xF8), (8, 0x58), (8, 0x78), (8, 0xB8), (8, 0x00), (8, 0xEA)] =
      [some .clc, some .sec, some .cld, some .sed, some .cli, some .sei, some .clv, some .brk,
      some .nop] := by decide +kernel

theorem test_decode_unassigned : reads [(8, 0x02), (8, 0x80), (8, 0xEB), (8, 0x1A), (8, 0xFF)] =
    [none, none, none, none, none] := by decide +kernel

theorem test_decode_rejects_by_name :
    decode [] = .error .empty ∧ decode [0x02] = .error (.unassignedOpcode 0x02) ∧ decode [0xAD, 0x00] = .error (.truncated 0xAD) := by
  decide +kernel

/-- The spec's JMP word in bytes, operand low byte first (46_jump_branch.md R150). -/
theorem test_encode_jmp : encode (.jmpAbs 0x1234) = [0x4C, 0x34, 0x12] := by decide +kernel

/-! ### One step: vectors of 95_test_vectors.md, Part 2, by their numbers -/

/-- The reset state with code at `pc` (95_test_vectors.md, "Base state"). -/
def code (pc : Addr) (bytes : List Byte) : State := { State.reset.writeBytes pc bytes with pc := pc }

/-- Registers, some bytes of memory and the counter after one step. -/
def after (s : State) (addrs : List Addr) : Option (Registers × List Byte × Nat) :=
  match step s with
  | .next t => some (t.registers, addrs.map t.readByte, t.ic)
  | _ => none

/-- The fault of one step. -/
def faultOf (s : State) : Option Fault :=
  match step s with
  | .fault f => some f
  | _ => none

theorem test_lda_V3 :
    after { code 0x0600 [0xA9, 0x01] with sr := 0xCF } [] =
      some ({ pc := 0x0602, a := 0x01, x := 0x00, y := 0x00, sr := 0x4D, sp := 0xFF }, [], 1) := by
  decide +kernel

theorem test_lda_V5 :
    after { ((code 0x0600 [0xB5, 0x80]).writeBytes 0x007F [0x55]).writeBytes 0x017F [0xAA] with x := 0xFF } [] =
      some ({ pc := 0x0602, a := 0x55, x := 0xFF, y := 0x00, sr := 0x00, sp := 0xFF }, [], 1) := by
  decide +kernel

theorem test_lda_V8 :
    after { (code 0x0600 [0xB9, 0xFF, 0xFF]).writeBytes 0x0001 [0x66] with y := 0x02 } [] =
      some ({ pc := 0x0603, a := 0x66, x := 0x00, y := 0x02, sr := 0x00, sp := 0xFF }, [], 1) := by
  decide +kernel

theorem test_lda_V9 :
    after { ((((code 0x0600 [0xA1,
      0xFF]).writeBytes 0x00FF [0x34]).writeBytes 0x0000 [0x12]).writeBytes 0x1234 [0x99]).writeBytes 0x0100 [0x77] with x := 0x00 } [] =
      some ({ pc := 0x0602, a := 0x99, x := 0x00, y := 0x00, sr := 0x80, sp := 0xFF }, [], 1) := by
  decide +kernel

theorem test_lda_V11 :
    after { ((code 0x0600 [0xB1, 0xFF]).writeBytes 0x00FF [0xFF]).writeBytes 0x0000 [0xFF] with y := 0x01 } [] =
      some ({ pc := 0x0602, a := 0xFF, x := 0x00, y := 0x01, sr := 0x80, sp := 0xFF }, [], 1) := by
  decide +kernel

theorem test_ldx_V6 :
    after { ((code 0x0600 [0xB6, 0xF0]).writeBytes 0x0010 [0x33]).writeBytes 0x0110 [0xAA] with y := 0x20 } [] =
      some ({ pc := 0x0602, a := 0x00, x := 0x33, y := 0x20, sr := 0x00, sp := 0xFF }, [], 1) := by
  decide +kernel

theorem test_ldx_V16 :
    after { (code 0x0600 [0xBE, 0x00, 0x10]).writeBytes 0x1010 [0x01] with y := 0x10 } [] =
      some ({ pc := 0x0603, a := 0x00, x := 0x01, y := 0x10, sr := 0x00, sp := 0xFF }, [], 1) := by
  decide +kernel

theorem test_ldy_V13 :
    after ((code 0x0600 [0xAC, 0x34, 0x12]).writeBytes 0x1234 [0x00]) [] =
      some ({ pc := 0x0603, a := 0x00, x := 0x00, y := 0x00, sr := 0x02, sp := 0xFF }, [], 1) := by
  decide +kernel

theorem test_ldy_V15 :
    after { (code 0x0600 [0xB4, 0x10]).writeBytes 0x0015 [0x80] with x := 0x05 } [] =
      some ({ pc := 0x0602, a := 0x00, x := 0x05, y := 0x80, sr := 0x80, sp := 0xFF }, [], 1) := by
  decide +kernel

theorem test_sta_V18 :
    after { (code 0x0600 [0x91, 0x20]).writeBytes 0x0020 [0x00, 0x03] with a := 0xAB, y := 0x04 } [0x0304] =
      some ({ pc := 0x0602, a := 0xAB, x := 0x00, y := 0x04, sr := 0x00, sp := 0xFF }, [0xAB], 1) := by
  decide +kernel

theorem test_sta_V23 :
    after { code 0x0600 [0x9D, 0xFF, 0xFF] with a := 0x77, x := 0x01 } [0x0000] =
      some ({ pc := 0x0603, a := 0x77, x := 0x01, y := 0x00, sr := 0x00, sp := 0xFF }, [0x77], 1) := by
  decide +kernel

theorem test_stx_V20 :
    after { code 0x0600 [0x96, 0xF0] with x := 0x11, y := 0x20 } [0x0010] =
      some ({ pc := 0x0602, a := 0x00, x := 0x11, y := 0x20, sr := 0x00, sp := 0xFF }, [0x11], 1) := by
  decide +kernel

theorem test_stx_V24 :
    after { code 0x0600 [0x8E, 0x00, 0x03] with x := 0x5A } [0x0300] =
      some ({ pc := 0x0603, a := 0x00, x := 0x5A, y := 0x00, sr := 0x00, sp := 0xFF }, [0x5A], 1) := by
  decide +kernel

theorem test_sty_V21 :
    after { code 0x0600 [0x94, 0x10] with x := 0xF0, y := 0x22 } [0x0000] =
      some ({ pc := 0x0602, a := 0x00, x := 0xF0, y := 0x22, sr := 0x00, sp := 0xFF }, [0x22], 1) := by
  decide +kernel

theorem test_sty_V25 :
    after { code 0x0600 [0x84, 0x40] with y := 0xA5 } [0x0040] =
      some ({ pc := 0x0602, a := 0x00, x := 0x00, y := 0xA5, sr := 0x00, sp := 0xFF }, [0xA5], 1) := by
  decide +kernel

theorem test_tax_V30 :
    after { code 0x0600 [0xAA] with a := 0x80 } [] =
      some ({ pc := 0x0601, a := 0x80, x := 0x80, y := 0x00, sr := 0x80, sp := 0xFF }, [], 1) := by
  decide +kernel

theorem test_tay_V31 :
    after { code 0x0600 [0xA8] with a := 0x00, y := 0x33 } [] =
      some ({ pc := 0x0601, a := 0x00, x := 0x00, y := 0x00, sr := 0x02, sp := 0xFF }, [], 1) := by
  decide +kernel

theorem test_tsx_V32 :
    after (code 0x0600 [0xBA]) [] =
      some ({ pc := 0x0601, a := 0x00, x := 0xFF, y := 0x00, sr := 0x80, sp := 0xFF }, [], 1) := by
  decide +kernel

theorem test_txa_V33 :
    after { code 0x0600 [0x8A] with x := 0x7F, sr := 0x82 } [] =
      some ({ pc := 0x0601, a := 0x7F, x := 0x7F, y := 0x00, sr := 0x00, sp := 0xFF }, [], 1) := by
  decide +kernel

theorem test_tya_V34 :
    after { code 0x0600 [0x98] with a := 0x12, y := 0x00 } [] =
      some ({ pc := 0x0601, a := 0x00, x := 0x00, y := 0x00, sr := 0x02, sp := 0xFF }, [], 1) := by
  decide +kernel

theorem test_txs_V36 :
    after { code 0x0600 [0x9A] with x := 0x80, sr := 0x02 } [] =
      some ({ pc := 0x0601, a := 0x00, x := 0x80, y := 0x00, sr := 0x02, sp := 0x80 }, [], 1) := by
  decide +kernel

theorem test_pha_V38 :
    after { code 0x0600 [0x48] with a := 0xCD, sp := 0x00 } [0x0100] =
      some ({ pc := 0x0601, a := 0xCD, x := 0x00, y := 0x00, sr := 0x00, sp := 0xFF }, [0xCD], 1) := by
  decide +kernel

theorem test_php_V39 :
    after { code 0x0600 [0x08] with sr := 0xC3 } [0x01FF] =
      some ({ pc := 0x0601, a := 0x00, x := 0x00, y := 0x00, sr := 0xC3, sp := 0xFE }, [0xD3], 1) := by
  decide +kernel

theorem test_php_V40 :
    after { code 0x0600 [0x08] with sr := 0x00 } [0x01FF] =
      some ({ pc := 0x0601, a := 0x00, x := 0x00, y := 0x00, sr := 0x00, sp := 0xFE }, [0x10], 1) := by
  decide +kernel

theorem test_pla_V42 :
    after { (code 0x0600 [0x68]).writeBytes 0x0100 [0x80] with sp := 0xFF } [] =
      some ({ pc := 0x0601, a := 0x80, x := 0x00, y := 0x00, sr := 0x80, sp := 0x00 }, [], 1) := by
  decide +kernel

theorem test_plp_V43 :
    after { (code 0x0600 [0x28]).writeBytes 0x01FF [0xFF] with sp := 0xFE } [] =
      some ({ pc := 0x0601, a := 0x00, x := 0x00, y := 0x00, sr := 0xEF, sp := 0xFF }, [], 1) := by
  decide +kernel

theorem test_plp_V44 :
    after { (code 0x0600 [0x28]).writeBytes 0x01FF [0x30] with sp := 0xFE, sr := 0xCF } [] =
      some ({ pc := 0x0601, a := 0x00, x := 0x00, y := 0x00, sr := 0x20, sp := 0xFF }, [], 1) := by
  decide +kernel

theorem test_and_V50 :
    after { code 0x0600 [0x29, 0x0F] with a := 0xF0 } [] =
      some ({ pc := 0x0602, a := 0x00, x := 0x00, y := 0x00, sr := 0x02, sp := 0xFF }, [], 1) := by
  decide +kernel

theorem test_and_V51 :
    after { (code 0x0600 [0x25, 0x10]).writeBytes 0x0010 [0x80] with a := 0xFF } [] =
      some ({ pc := 0x0602, a := 0x80, x := 0x00, y := 0x00, sr := 0x80, sp := 0xFF }, [], 1) := by
  decide +kernel

theorem test_ora_V53 :
    after { (code 0x0600 [0x19, 0x00, 0x03]).writeBytes 0x0301 [0x00] with a := 0x00, y := 0x01 } [] =
      some ({ pc := 0x0603, a := 0x00, x := 0x00, y := 0x01, sr := 0x02, sp := 0xFF }, [], 1) := by
  decide +kernel

theorem test_eor_V55 :
    after { (code 0x0600 [0x4D, 0x34, 0x12]).writeBytes 0x1234 [0xF0] with a := 0x0F } [] =
      some ({ pc := 0x0603, a := 0xFF, x := 0x00, y := 0x00, sr := 0x80, sp := 0xFF }, [], 1) := by
  decide +kernel

theorem test_bit_V56 :
    after { (code 0x0600 [0x24, 0x10]).writeBytes 0x0010 [0xC0] with a := 0x01, sr := 0x01 } [] =
      some ({ pc := 0x0602, a := 0x01, x := 0x00, y := 0x00, sr := 0xC3, sp := 0xFF }, [], 1) := by
  decide +kernel

theorem test_bit_V57 :
    after { (code 0x0600 [0x2C, 0x34, 0x12]).writeBytes 0x1234 [0x3F] with a := 0xFF, sr := 0xC2 } [] =
      some ({ pc := 0x0603, a := 0xFF, x := 0x00, y := 0x00, sr := 0x00, sp := 0xFF }, [], 1) := by
  decide +kernel

theorem test_adc_V62 :
    after { code 0x0600 [0x69, 0x00] with a := 0x7F, sr := 0x01 } [] =
      some ({ pc := 0x0602, a := 0x80, x := 0x00, y := 0x00, sr := 0xC0, sp := 0xFF }, [], 1) := by
  decide +kernel

theorem test_adc_V63 :
    after { code 0x0600 [0x69, 0x80] with a := 0x80 } [] =
      some ({ pc := 0x0602, a := 0x00, x := 0x00, y := 0x00, sr := 0x43, sp := 0xFF }, [], 1) := by
  decide +kernel

theorem test_adc_V65 :
    after { code 0x0600 [0x69, 0x01] with a := 0x09, sr := 0x08 } [] =
      some ({ pc := 0x0602, a := 0x0A, x := 0x00, y := 0x00, sr := 0x08, sp := 0xFF }, [], 1) := by
  decide +kernel

theorem test_sbc_V71 :
    after { code 0x0600 [0xE9, 0x00] with a := 0x00, sr := 0x00 } [] =
      some ({ pc := 0x0602, a := 0xFF, x := 0x00, y := 0x00, sr := 0x80, sp := 0xFF }, [], 1) := by
  decide +kernel

theorem test_sbc_V72 :
    after { code 0x0600 [0xE9, 0x01] with a := 0x80, sr := 0x01 } [] =
      some ({ pc := 0x0602, a := 0x7F, x := 0x00, y := 0x00, sr := 0x41, sp := 0xFF }, [], 1) := by
  decide +kernel

theorem test_sbc_V75 :
    after { code 0x0600 [0xE9, 0xFF] with a := 0x00, sr := 0x00 } [] =
      some ({ pc := 0x0602, a := 0x00, x := 0x00, y := 0x00, sr := 0x02, sp := 0xFF }, [], 1) := by
  decide +kernel

theorem test_cmp_V77 :
    after { code 0x0600 [0xC9, 0x41] with a := 0x40, sr := 0x40 } [] =
      some ({ pc := 0x0602, a := 0x40, x := 0x00, y := 0x00, sr := 0xC0, sp := 0xFF }, [], 1) := by
  decide +kernel

theorem test_cmp_V78 :
    after { code 0x0600 [0xC9, 0x01] with a := 0x80 } [] =
      some ({ pc := 0x0602, a := 0x80, x := 0x00, y := 0x00, sr := 0x01, sp := 0xFF }, [], 1) := by
  decide +kernel

theorem test_cpx_V81 :
    after { (code 0x0600 [0xE4, 0x10]).writeBytes 0x0010 [0x01] with x := 0x00 } [] =
      some ({ pc := 0x0602, a := 0x00, x := 0x00, y := 0x00, sr := 0x80, sp := 0xFF }, [], 1) := by
  decide +kernel

theorem test_cpy_V83 :
    after { (code 0x0600 [0xCC, 0x34, 0x12]).writeBytes 0x1234 [0x80] with y := 0x7F } [] =
      some ({ pc := 0x0603, a := 0x00, x := 0x00, y := 0x7F, sr := 0x80, sp := 0xFF }, [], 1) := by
  decide +kernel

theorem test_inc_V90 :
    after ((code 0x0600 [0xE6, 0x10]).writeBytes 0x0010 [0xFF]) [0x0010] =
      some ({ pc := 0x0602, a := 0x00, x := 0x00, y := 0x00, sr := 0x02, sp := 0xFF }, [0x00], 1) := by
  decide +kernel

theorem test_inc_V91 :
    after { (code 0x0600 [0xFE, 0x00, 0x03]).writeBytes 0x0301 [0x7F] with x := 0x01 } [0x0301] =
      some ({ pc := 0x0603, a := 0x00, x := 0x01, y := 0x00, sr := 0x80, sp := 0xFF }, [0x80], 1) := by
  decide +kernel

theorem test_dec_V92 :
    after ((code 0x0600 [0xC6, 0x10]).writeBytes 0x0010 [0x00]) [0x0010] =
      some ({ pc := 0x0602, a := 0x00, x := 0x00, y := 0x00, sr := 0x80, sp := 0xFF }, [0xFF], 1) := by
  decide +kernel

theorem test_dec_V93 :
    after { (code 0x0600 [0xD6, 0x10]).writeBytes 0x0008 [0x01] with x := 0xF8 } [0x0008] =
      some ({ pc := 0x0602, a := 0x00, x := 0xF8, y := 0x00, sr := 0x02, sp := 0xFF }, [0x00], 1) := by
  decide +kernel

theorem test_inx_V94 :
    after { code 0x0600 [0xE8] with x := 0xFF } [] =
      some ({ pc := 0x0601, a := 0x00, x := 0x00, y := 0x00, sr := 0x02, sp := 0xFF }, [], 1) := by
  decide +kernel

theorem test_iny_V95 :
    after { code 0x0600 [0xC8] with y := 0x7F } [] =
      some ({ pc := 0x0601, a := 0x00, x := 0x00, y := 0x80, sr := 0x80, sp := 0xFF }, [], 1) := by
  decide +kernel

theorem test_dex_V96 :
    after { code 0x0600 [0xCA] with x := 0x01 } [] =
      some ({ pc := 0x0601, a := 0x00, x := 0x00, y := 0x00, sr := 0x02, sp := 0xFF }, [], 1) := by
  decide +kernel

theorem test_dey_V97 :
    after { code 0x0600 [0x88] with y := 0x00 } [] =
      some ({ pc := 0x0601, a := 0x00, x := 0x00, y := 0xFF, sr := 0x80, sp := 0xFF }, [], 1) := by
  decide +kernel

theorem test_asl_V98 :
    after { code 0x0600 [0x0A] with a := 0x80 } [] =
      some ({ pc := 0x0601, a := 0x00, x := 0x00, y := 0x00, sr := 0x03, sp := 0xFF }, [], 1) := by
  decide +kernel

theorem test_asl_V100 :
    after { (code 0x0600 [0x06, 0x10]).writeBytes 0x0010 [0xC1] with a := 0x11 } [0x0010] =
      some ({ pc := 0x0602, a := 0x11, x := 0x00, y := 0x00, sr := 0x81, sp := 0xFF }, [0x82], 1) := by
  decide +kernel

theorem test_lsr_V101 :
    after { code 0x0600 [0x4A] with a := 0x01, sr := 0x80 } [] =
      some ({ pc := 0x0601, a := 0x00, x := 0x00, y := 0x00, sr := 0x03, sp := 0xFF }, [], 1) := by
  decide +kernel

theorem test_lsr_V102 :
    after ((code 0x0600 [0x4E, 0x34, 0x12]).writeBytes 0x1234 [0xFE]) [0x1234] =
      some ({ pc := 0x0603, a := 0x00, x := 0x00, y := 0x00, sr := 0x00, sp := 0xFF }, [0x7F], 1) := by
  decide +kernel

theorem test_rol_V103 :
    after { code 0x0600 [0x2A] with a := 0x80, sr := 0x01 } [] =
      some ({ pc := 0x0601, a := 0x01, x := 0x00, y := 0x00, sr := 0x01, sp := 0xFF }, [], 1) := by
  decide +kernel

theorem test_rol_V105 :
    after { (code 0x0600 [0x3E, 0x00, 0x03]).writeBytes 0x0302 [0x7F] with x := 0x02, sr := 0x01 } [0x0302] =
      some ({ pc := 0x0603, a := 0x00, x := 0x02, y := 0x00, sr := 0x80, sp := 0xFF }, [0xFF], 1) := by
  decide +kernel

theorem test_ror_V106 :
    after { code 0x0600 [0x6A] with a := 0x01, sr := 0x01 } [] =
      some ({ pc := 0x0601, a := 0x80, x := 0x00, y := 0x00, sr := 0x81, sp := 0xFF }, [], 1) := by
  decide +kernel

theorem test_ror_V107 :
    after { (code 0x0600 [0x66, 0x10]).writeBytes 0x0010 [0x00] with sr := 0x01 } [0x0010] =
      some ({ pc := 0x0602, a := 0x00, x := 0x00, y := 0x00, sr := 0x80, sp := 0xFF }, [0x80], 1) := by
  decide +kernel

theorem test_jmp_V120 :
    after (code 0x0600 [0x4C, 0x34, 0x12]) [] =
      some ({ pc := 0x1234, a := 0x00, x := 0x00, y := 0x00, sr := 0x00, sp := 0xFF }, [], 1) := by
  decide +kernel

theorem test_jmp_V121 :
    after ((code 0x0600 [0x6C, 0x00, 0x03]).writeBytes 0x0300 [0x78, 0x56]) [] =
      some ({ pc := 0x5678, a := 0x00, x := 0x00, y := 0x00, sr := 0x00, sp := 0xFF }, [], 1) := by
  decide +kernel

theorem test_jsr_V127 :
    after { code 0x0600 [0x20, 0x34, 0x12] with sp := 0x00 } [0x0100, 0x01FF] =
      some ({ pc := 0x1234, a := 0x00, x := 0x00, y := 0x00, sr := 0x00, sp := 0xFE }, [0x06, 0x02], 1) := by
  decide +kernel

theorem test_rts_V129 :
    after { (code 0x0600 [0x60]).writeBytes 0x01FE [0xFF, 0xFF] with sp := 0xFD } [] =
      some ({ pc := 0x0000, a := 0x00, x := 0x00, y := 0x00, sr := 0x00, sp := 0xFF }, [], 1) := by
  decide +kernel

theorem test_rts_V130 :
    after (((code 0x0600 [0x60]).writeBytes 0x0100 [0x33]).writeBytes 0x0101 [0x22]) [] =
      some ({ pc := 0x2234, a := 0x00, x := 0x00, y := 0x00, sr := 0x00, sp := 0x01 }, [], 1) := by
  decide +kernel

theorem test_rti_V131 :
    after { (code 0x0600 [0x40]).writeBytes 0x01FD [0xFF, 0x34, 0x12] with sp := 0xFC } [] =
      some ({ pc := 0x1234, a := 0x00, x := 0x00, y := 0x00, sr := 0xEF, sp := 0xFF }, [], 1) := by
  decide +kernel

theorem test_rti_V132 :
    after { (code 0x0600 [0x40]).writeBytes 0x01FD [0x10, 0x00, 0x80] with sp := 0xFC, sr := 0xFF } [] =
      some ({ pc := 0x8000, a := 0x00, x := 0x00, y := 0x00, sr := 0x00, sp := 0xFF }, [], 1) := by
  decide +kernel

theorem test_bcc_V140 :
    after { code 0x0600 [0x90, 0x10] with sr := 0x00 } [] =
      some ({ pc := 0x0612, a := 0x00, x := 0x00, y := 0x00, sr := 0x00, sp := 0xFF }, [], 1) := by
  decide +kernel

theorem test_bcc_V141 :
    after { code 0x0600 [0x90, 0x10] with sr := 0x01 } [] =
      some ({ pc := 0x0602, a := 0x00, x := 0x00, y := 0x00, sr := 0x01, sp := 0xFF }, [], 1) := by
  decide +kernel

theorem test_bcs_V142 :
    after { code 0x0600 [0xB0, 0x10] with sr := 0x00 } [] =
      some ({ pc := 0x0602, a := 0x00, x := 0x00, y := 0x00, sr := 0x00, sp := 0xFF }, [], 1) := by
  decide +kernel

theorem test_bcs_V143 :
    after { code 0x0600 [0xB0, 0x10] with sr := 0x01 } [] =
      some ({ pc := 0x0612, a := 0x00, x := 0x00, y := 0x00, sr := 0x01, sp := 0xFF }, [], 1) := by
  decide +kernel

theorem test_bne_V144 :
    after { code 0x0600 [0xD0, 0x10] with sr := 0x00 } [] =
      some ({ pc := 0x0612, a := 0x00, x := 0x00, y := 0x00, sr := 0x00, sp := 0xFF }, [], 1) := by
  decide +kernel

theorem test_bne_V145 :
    after { code 0x0600 [0xD0, 0x10] with sr := 0x02 } [] =
      some ({ pc := 0x0602, a := 0x00, x := 0x00, y := 0x00, sr := 0x02, sp := 0xFF }, [], 1) := by
  decide +kernel

theorem test_beq_V146 :
    after { code 0x0600 [0xF0, 0x10] with sr := 0x00 } [] =
      some ({ pc := 0x0602, a := 0x00, x := 0x00, y := 0x00, sr := 0x00, sp := 0xFF }, [], 1) := by
  decide +kernel

theorem test_beq_V147 :
    after { code 0x0600 [0xF0, 0x10] with sr := 0x02 } [] =
      some ({ pc := 0x0612, a := 0x00, x := 0x00, y := 0x00, sr := 0x02, sp := 0xFF }, [], 1) := by
  decide +kernel

theorem test_bpl_V148 :
    after { code 0x0600 [0x10, 0x10] with sr := 0x00 } [] =
      some ({ pc := 0x0612, a := 0x00, x := 0x00, y := 0x00, sr := 0x00, sp := 0xFF }, [], 1) := by
  decide +kernel

theorem test_bpl_V149 :
    after { code 0x0600 [0x10, 0x10] with sr := 0x80 } [] =
      some ({ pc := 0x0602, a := 0x00, x := 0x00, y := 0x00, sr := 0x80, sp := 0xFF }, [], 1) := by
  decide +kernel

theorem test_bmi_V150 :
    after { code 0x0600 [0x30, 0x10] with sr := 0x00 } [] =
      some ({ pc := 0x0602, a := 0x00, x := 0x00, y := 0x00, sr := 0x00, sp := 0xFF }, [], 1) := by
  decide +kernel

theorem test_bmi_V151 :
    after { code 0x0600 [0x30, 0x10] with sr := 0x80 } [] =
      some ({ pc := 0x0612, a := 0x00, x := 0x00, y := 0x00, sr := 0x80, sp := 0xFF }, [], 1) := by
  decide +kernel

theorem test_bvc_V152 :
    after { code 0x0600 [0x50, 0x10] with sr := 0x00 } [] =
      some ({ pc := 0x0612, a := 0x00, x := 0x00, y := 0x00, sr := 0x00, sp := 0xFF }, [], 1) := by
  decide +kernel

theorem test_bvc_V153 :
    after { code 0x0600 [0x50, 0x10] with sr := 0x40 } [] =
      some ({ pc := 0x0602, a := 0x00, x := 0x00, y := 0x00, sr := 0x40, sp := 0xFF }, [], 1) := by
  decide +kernel

theorem test_bvs_V154 :
    after { code 0x0600 [0x70, 0x10] with sr := 0x00 } [] =
      some ({ pc := 0x0602, a := 0x00, x := 0x00, y := 0x00, sr := 0x00, sp := 0xFF }, [], 1) := by
  decide +kernel

theorem test_bvs_V155 :
    after { code 0x0600 [0x70, 0x10] with sr := 0x40 } [] =
      some ({ pc := 0x0612, a := 0x00, x := 0x00, y := 0x00, sr := 0x40, sp := 0xFF }, [], 1) := by
  decide +kernel

theorem test_bne_V157 :
    after (code 0x0600 [0xD0, 0x80]) [] =
      some ({ pc := 0x0582, a := 0x00, x := 0x00, y := 0x00, sr := 0x00, sp := 0xFF }, [], 1) := by
  decide +kernel

theorem test_bpl_V159 :
    after (code 0x0000 [0x10, 0x80]) [] =
      some ({ pc := 0xFF82, a := 0x00, x := 0x00, y := 0x00, sr := 0x00, sp := 0xFF }, [], 1) := by
  decide +kernel

theorem test_clc_V170 :
    after { code 0x0600 [0x18] with sr := 0xFF } [] =
      some ({ pc := 0x0601, a := 0x00, x := 0x00, y := 0x00, sr := 0xFE, sp := 0xFF }, [], 1) := by
  decide +kernel

theorem test_sec_V171 :
    after (code 0x0600 [0x38]) [] =
      some ({ pc := 0x0601, a := 0x00, x := 0x00, y := 0x00, sr := 0x01, sp := 0xFF }, [], 1) := by
  decide +kernel

theorem test_cld_V172 :
    after { code 0x0600 [0xD8] with sr := 0xFF } [] =
      some ({ pc := 0x0601, a := 0x00, x := 0x00, y := 0x00, sr := 0xF7, sp := 0xFF }, [], 1) := by
  decide +kernel

theorem test_sed_V173 :
    after (code 0x0600 [0xF8]) [] =
      some ({ pc := 0x0601, a := 0x00, x := 0x00, y := 0x00, sr := 0x08, sp := 0xFF }, [], 1) := by
  decide +kernel

theorem test_cli_V174 :
    after { code 0x0600 [0x58] with sr := 0xFF } [] =
      some ({ pc := 0x0601, a := 0x00, x := 0x00, y := 0x00, sr := 0xFB, sp := 0xFF }, [], 1) := by
  decide +kernel

theorem test_sei_V175 :
    after (code 0x0600 [0x78]) [] =
      some ({ pc := 0x0601, a := 0x00, x := 0x00, y := 0x00, sr := 0x04, sp := 0xFF }, [], 1) := by
  decide +kernel

theorem test_clv_V176 :
    after { code 0x0600 [0xB8] with sr := 0xFF } [] =
      some ({ pc := 0x0601, a := 0x00, x := 0x00, y := 0x00, sr := 0xBF, sp := 0xFF }, [], 1) := by
  decide +kernel

theorem test_nop_V177 :
    after { code 0x0600 [0xEA] with a := 0x01, x := 0x02, y := 0x03, sr := 0xC3 } [] =
      some ({ pc := 0x0601, a := 0x01, x := 0x02, y := 0x03, sr := 0xC3, sp := 0xFF }, [], 1) := by
  decide +kernel

theorem test_brk_V180 :
    after ((code 0xFFFF [0x00]).writeBytes 0xFFFE [0x34]) [0x01FD, 0x01FE] =
      some ({ pc := 0x0034, a := 0x00, x := 0x00, y := 0x00, sr := 0x04, sp := 0xFC }, [0x10, 0x01], 1) := by
  decide +kernel

theorem test_brk_V181 :
    after { (code 0x0600 [0x00]).writeBytes 0xFFFE [0x00, 0x07] with sp := 0x01 } [0x0100, 0x0101, 0x01FF] =
      some ({ pc := 0x0700, a := 0x00, x := 0x00, y := 0x00, sr := 0x04, sp := 0xFE }, [0x02, 0x06, 0x10], 1) := by
  decide +kernel

theorem test_unassigned_V190 :
    faultOf { code 0x0600 [0x02] with a := 0x12, sr := 0x41 } = some (.unknownOpcode 0x02 0x0600) := by
  decide +kernel

theorem test_lda_V195 :
    after ((code 0xFFFF [0xA9]).writeBytes 0x0000 [0x42]) [] =
      some ({ pc := 0x0001, a := 0x42, x := 0x00, y := 0x00, sr := 0x00, sp := 0xFF }, [], 1) := by
  decide +kernel

theorem test_lda_V196 :
    after (((code 0xFFFE [0xAD, 0x00]).writeBytes 0x0000 [0x03]).writeBytes 0x0300 [0x5C]) [] =
      some ({ pc := 0x0001, a := 0x5C, x := 0x00, y := 0x00, sr := 0x00, sp := 0xFF }, [], 1) := by
  decide +kernel

/-- V122 to V125: the indirect jump's target for both values of `JMP_IND_PAGE_WRAP`. -/
theorem test_jmp_indirect_V122_V123 :
    let s := ((State.reset.writeBytes 0x02FF [0x34]).writeBytes 0x0300 [0x12]).writeBytes 0x0200 [0xAB]
    s.indirectTarget false 0x02FF = 0x1234 ∧ s.indirectTarget true 0x02FF = 0xAB34 := by decide +kernel

theorem test_jmp_indirect_V124_V125 :
    let s := ((State.reset.writeBytes 0xFFFF [0x34]).writeBytes 0x0000 [0x12]).writeBytes 0xFF00 [0xAB]
    s.indirectTarget false 0xFFFF = 0x1234 ∧ s.indirectTarget true 0xFFFF = 0xAB34 := by decide +kernel

/-! ### Memory, the host and the loader -/

theorem test_writing_zero_unlists : ((State.reset.writeByte 0x10 0x7F).writeByte 0x10 0x00).mem = [] := by decide +kernel
theorem test_unsorted_memory_is_not_wf : Memory.wf [(5, 1), (4, 1)] = false := by decide
theorem test_listed_zero_is_not_wf : Memory.wf [(5, 0)] = false := by decide
theorem test_outside_memory_is_not_wf : Memory.wf [(65536, 1)] = false := by decide

theorem test_placed_word_runs : after (State.reset.withFetchWord 16 0x42A9) [] =
    some ({ pc := 0x0002, a := 0x42, x := 0, y := 0, sr := 0, sp := 0xFF }, [], 1) := by decide +kernel

/-- 70_reset_and_hazards.md R202 and T2 of 95_test_vectors.md. -/
theorem test_reset_runs_brk_T2 : after State.reset [0x01FF, 0x01FE, 0x01FD] =
    some ({ pc := 0, a := 0, x := 0, y := 0, sr := 0x04, sp := 0xFC }, [0x00, 0x02, 0x10], 1) := by decide +kernel

/-- Accesses of `INC $10` in the order of 40_step_addressing_flags.md R95: opcode, operand, read of EA, one write of EA. -/
theorem test_accesses_of_inc : accesses (.incZp 0x10) (code 0x0600 [0xE6, 0x10]) =
    [.read 0x0600, .read 0x0601, .read 0x0010, .write 0x0010 0x01] := by decide +kernel

/-- Accesses of BRK: opcode only, three pushes, then the vector (R95; 92_eei_decisions.md D5). -/
theorem test_accesses_of_brk : accesses .brk (code 0x0600 [0x00]) =
    [.read 0x0600, .write 0x01FF 0x06, .write 0x01FE 0x02, .write 0x01FD 0x10, .read 0xFFFE, .read 0xFFFF] := by
  decide +kernel

/-- 70_reset_and_hazards.md R216 to R219 on a 129-byte file: PAL bit set, starting song 1, one byte of program. -/
def smallNsf : List Byte :=
  [0x4E, 0x45, 0x53, 0x4D, 0x1A, 0x01, 0x01, 0x01, 0x00, 0x80, 0x00, 0x80, 0x03, 0x80] ++ List.replicate 108 0x00 ++ [0x01]
    ++ List.replicate 5 0x00 ++ [0x60]

theorem test_nsf_header : (nsfHeader smallNsf).map (fun h => (h.loadAddr, h.initAddr, h.playAddr, h.mode)) =
    .ok (0x8000, 0x8000, 0x8003, 0x01) := by decide +kernel
theorem test_nsf_bad_magic : nsfHeader [0x4E, 0x45, 0x53, 0x00] = .error .badMagic := by decide +kernel

/-! ### Witnesses: for each statement with hypotheses, a state and operands that meet them -/

/-- `step s` answers a next state, from what is fetched. -/
theorem steps {s : State} {i : Instr} (h : s.fetch = .ok i) : ∃ t, step s = .next t := step_of_fetch_ok s i h

theorem witness_DecodeOfEncodeIsTheInstruction :
    (Instr.ldaAbx 0x12FF).WellFormed ∧ (Instr.bne 0x80).WellFormed ∧ Instr.aslAcc.WellFormed := by decide

theorem witness_DecodedBytesAreTheEncoding : decode [0xA9, 0xFF, 0x12] = .ok (.ldaImm 0xFF, [0x12]) := by decide +kernel

theorem witness_OneOpcodePerMnemonicAndMode :
    decode [0xA9, 0x01] = .ok (.ldaImm 0x01, []) ∧ decode [0xA9, 0x02] = .ok (.ldaImm 0x02, []) ∧
    (Instr.ldaImm 0x01).mnemonic = (Instr.ldaImm 0x02).mnemonic ∧ (Instr.ldaImm 0x01).mode = (Instr.ldaImm 0x02).mode := by
  decide +kernel

theorem witness_EveryOpcodeByteIsAnInstructionOrAFault :
    (0x02 ∈ unassignedOpcodes ∧ (code 0x0600 [0x02]).readByte (code 0x0600 [0x02]).pc = 0x02) ∧
    0xFF ∈ unassignedOpcodes ∧ 0x00 ∉ unassignedOpcodes ∧ 0xFE ∉ unassignedOpcodes := by decide +kernel

theorem witness_StepRunsTheDecodedInstruction :
    (Instr.ldaAbs 0x0300).WellFormed ∧
    ∀ k, (h : k < (encode (.ldaAbs 0x0300)).length) →
      (code 0xFFFE [0xAD, 0x00, 0x03]).readByte ((code 0xFFFE [0xAD, 0x00, 0x03]).pc + BitVec.ofNat 16 k) =
        (encode (.ldaAbs 0x0300))[k] := by decide +kernel

theorem witness_TheOnlyFaultIsUnknownOpcode :
    faultOf (code 0xFFFF [0xFF]) = some (.unknownOpcode 0xFF 0xFFFF) ∧
    (code 0xFFFF [0xFF]).readByte (code 0xFFFF [0xFF]).pc ∈ unassignedOpcodes := by decide +kernel

theorem session_faults {h : Session} {r : Reject} (hf : h.machine.fetch = .error r) : ∃ f h', h.step = (.faulted f, h') :=
  ⟨.unknownOpcode (h.machine.readByte h.machine.pc) h.machine.pc, h, by
    simp only [Session.step, step_of_fetch_error _ _ hf]⟩

theorem session_steps {h : Session} {i : Instr} (hf : h.machine.fetch = .ok i) : ∃ ids h', h.step = (.stepped ids, h') := by
  obtain ⟨t, ht⟩ := steps hf
  exact ⟨h.subscribers, { h with machine := t }, by simp only [Session.step, ht]⟩

theorem witness_FaultKeepsTheStateAndRepeats :
    (∃ f h', Session.step { machine := code 0x0600 [0x02], subscribers := [3], nextId := 4 } = (.faulted f, h')) ∧
    ∃ ids h', Session.step { machine := code 0x0600 [0xEA], subscribers := [3, 5], nextId := 6 } = (.stepped ids, h') :=
  ⟨session_faults (r := .unassignedOpcode 0x02) (by decide +kernel), session_steps (i := .nop) (by decide +kernel)⟩

theorem witness_AssignedOpcodesAlwaysStep :
    (code 0x0600 [0xEA]).readByte (code 0x0600 [0xEA]).pc ∉ unassignedOpcodes := by decide +kernel

theorem witness_EveryStepCountsOne : ∃ t, step (code 0x0600 [0xEA]) = .next t :=
  steps (i := .nop) (by decide +kernel)

theorem witness_PcAdvancesByTheLength :
    (code 0xFFFF [0xA9, 0x42]).fetch = .ok (.ldaImm 0x42) ∧ (Instr.ldaImm 0x42).mnemonic ∉ pcWriters ∧
    ∃ t, step (code 0xFFFF [0xA9, 0x42]) = .next t :=
  ⟨by decide +kernel, by decide, steps (i := .ldaImm 0x42) (by decide +kernel)⟩

theorem witness_StepKeepsTheInvariant :
    (code 0x0600 [0x28]).Inv ∧ ∃ t, step (code 0x0600 [0x28]) = .next t :=
  ⟨by decide +kernel, steps (i := .plp) (by decide +kernel)⟩

theorem witness_StackWrapsAndReverses :
    { State.reset with sp := 0x00 }.sp = 0x00 ∧ State.reset.sp = 0xFF ∧ [(1 : Byte), 2, 3].length ≤ 256 ∧
    (List.replicate 256 (7 : Byte)).length = 256 := by decide +kernel

theorem witness_LoadsSetTheirRegister :
    (Instr.ldaIzy 0xFF).mnemonic = .lda ∧ (Instr.ldxZpy 0xFF).mnemonic = .ldx ∧ (Instr.ldyAbx 0xFFFF).mnemonic = .ldy := by
  decide

theorem witness_StoresWriteTheEffectiveAddress :
    ((Instr.staIzx 0xFF).mnemonic = .sta ∧ Reg.a = .a) ∧ ((Instr.stxZpy 0xFF).mnemonic = .stx ∧ Reg.x = .x) ∧
    (Instr.styAbs 0xFFFF).mnemonic = .sty ∧ Reg.y = .y := by decide

theorem witness_TransfersCopyAndSetNZ :
    ∀ p ∈ [(Instr.tax, Reg.a, Reg.x), (.tay, .a, .y), (.tsx, .sp, .x), (.txa, .x, .a), (.tya, .y, .a)],
      p ∈ [(Instr.tax, Reg.a, Reg.x), (.tay, .a, .y), (.tsx, .sp, .x), (.txa, .x, .a), (.tya, .y, .a)] := by decide

theorem witness_PhaAndPhpPush :
    (Instr.pha = .pha ∧ (0x00 : Byte) = State.reset.a) ∧ Instr.php = .php ∧ (0x10 : Byte) = State.reset.sr ||| 0x10 := by
  decide

theorem witness_PlpLoadsStatusWithoutB : Flag.n ≠ .b ∧ Flag.u ≠ .b ∧ Flag.c ≠ .b := by decide

theorem witness_PhpThenPlpRestoresStatus : { State.reset with sr := 0xEF }.flag .b = false := by decide

theorem witness_LogicalOperationsOnA :
    ((Instr.andImm 0x0F).mnemonic = .and ∧ (and : Bool → Bool → Bool) = and) ∧
    ((Instr.oraAby 0x0300).mnemonic = .ora ∧ (or : Bool → Bool → Bool) = or) ∧
    (Instr.eorIzy 0xFF).mnemonic = .eor ∧ xor = xor := ⟨⟨rfl, rfl⟩, ⟨rfl, rfl⟩, rfl, rfl⟩

theorem witness_BitTestsWithoutChangingA : (Instr.bitAbs 0x1234).mnemonic = .bit := by decide

theorem witness_AdcAddsWithCarry : (Instr.adcAbx 0xFFFF).mnemonic = .adc := by decide

theorem witness_SbcSubtractsWithBorrow : (Instr.sbcIzx 0xFF).mnemonic = .sbc := by decide

theorem witness_OverflowMeansSignedOutOfRange :
    (Instr.adcImm 0x7F).mnemonic = .adc ∧ (Instr.sbcImm 0x80).mnemonic = .sbc := by decide

theorem witness_ComparesSetFlagsOnly :
    ((Instr.cmpImm 0xFF).mnemonic = .cmp ∧ Reg.a = .a) ∧ ((Instr.cpxZp 0xFF).mnemonic = .cpx ∧ Reg.x = .x) ∧
    (Instr.cpyAbs 0xFFFF).mnemonic = .cpy ∧ Reg.y = .y := by decide

theorem witness_IncAndDecModifyMemory :
    ((Instr.incAbx 0xFFFF).mnemonic = .inc ∧ 1 = 1) ∧ (Instr.decZpx 0xFF).mnemonic = .dec ∧ 255 = 255 := by decide

theorem witness_IndexRegistersCount :
    ∀ p ∈ [(Instr.inx, Reg.x, 1), (.iny, .y, 1), (.dex, .x, 255), (.dey, .y, 255)],
      p ∈ [(Instr.inx, Reg.x, 1), (.iny, .y, 1), (.dex, .x, 255), (.dey, .y, 255)] := by decide

theorem witness_ShiftsAndRotates :
    ((Instr.aslAbx 0xFFFF).mnemonic ∈ [Mnemonic.asl, .lsr, .rol, .ror] ∧
      (Instr.aslAbx 0xFFFF).operand = .mem (.abx 0xFFFF)) ∧
    ((Instr.rorZpx 0xFF).mnemonic ∈ [Mnemonic.asl, .lsr, .rol, .ror] ∧ (Instr.rorZpx 0xFF).operand = .mem (.zpx 0xFF)) ∧
    (Instr.rolAcc.mnemonic ∈ [Mnemonic.asl, .lsr, .rol, .ror] ∧ Instr.rolAcc.mode = .acc) ∧
    Instr.lsrAcc.mnemonic ∈ [Mnemonic.asl, .lsr, .rol, .ror] ∧ Instr.lsrAcc.mode = .acc := by decide

theorem witness_BranchesTestTheirFlag :
    ∀ f ∈ [Flag.c, .z, .n, .v], State.reset.flag f = false ∧ (State.reset.setFlag f true).flag f = true := by decide

theorem witness_FlagInstructionsWriteOneFlag :
    ∀ p ∈ [(Instr.clc, Flag.c, false), (.sec, .c, true), (.cld, .d, false), (.sed, .d, true), (.cli, .i, false),
        (.sei, .i, true), (.clv, .v, false)],
      p ∈ [(Instr.clc, Flag.c, false), (.sec, .c, true), (.cld, .d, false), (.sed, .d, true), (.cli, .i, false),
        (.sei, .i, true), (.clv, .v, false)] := by decide

theorem witness_RtiUndoesBrk : { State.reset with sr := 0xEF }.flag .b = false := by decide

theorem witness_UndeclaredFlagsAreUnchanged : Flag.c ∉ declaredFlags .lda ∧ Flag.d ∉ declaredFlags .brk := by decide

theorem witness_OnlyNamedInstructionsWriteARegister :
    (∃ t, exec (.staAbs 0x0300) State.reset = .next t) ∧ (∀ r, (Instr.staAbs 0x0300).mnemonic ∉ regWriters r) ∧
    (∃ t, exec (.aslZp 0xFF) State.reset = .next t) ∧
    (Instr.aslZp 0xFF).mnemonic ∈ [Mnemonic.asl, .lsr, .rol, .ror] ∧ (Instr.aslZp 0xFF).mode ≠ .acc :=
  ⟨⟨_, rfl⟩, fun r => by cases r <;> decide, ⟨_, rfl⟩, by decide, by decide⟩

theorem witness_StorageFlagsDecideNothing :
    (∀ f ∈ [Flag.u, .b, .d, .i], ∃ g, g ≠ f) ∧ (Instr.adcImm 0x09).mnemonic ∉ [Mnemonic.php, .brk] ∧ Flag.b ∈ [Flag.u, .b, .d, .i] ∧
    (Instr.php.mnemonic = .php ∧ (0x01FE : Addr) ≠ stackAddr State.reset.sp ∧ (0x0200 : Addr) ≠ stackAddr State.reset.sp) ∧
    Instr.brk.mnemonic = .brk ∧ (0x01FC : Addr) ≠ stackAddr (State.reset.sp - 2) ∧
    (0x01FE : Addr) ≠ stackAddr (State.reset.sp - 2) :=
  ⟨fun f _ => by cases f <;> first | exact ⟨.c, by decide⟩ | exact ⟨.n, by decide⟩, by decide⟩

theorem witness_MachineWithNoProgramRepeatsBrk : { State.reset with sp := 0x01, mem := [(0x0100, 0x7F)] }.NoProgram := by
  refine ⟨rfl, fun addr h => ?_⟩
  have : ¬ 0x0100 = addr.toNat := by omega
  simp [State.readByte, Memory.read, Memory.unlisted, this]

theorem witness_TheCounterIsNotObservable : ∃ t, step (code 0x0600 [0x00]) = .next t :=
  steps (i := .brk) (by decide +kernel)

theorem witness_AccessListRebuildsTheMemory :
    (code 0x0600 [0x8D, 0x00, 0x03]).fetch = .ok (.staAbs 0x0300) ∧
    (∃ t, step (code 0x0600 [0x8D, 0x00, 0x03]) = .next t) ∧
    0x0301 ∉ writtenAddrs (accesses (.staAbs 0x0300) (code 0x0600 [0x8D, 0x00, 0x03])) ∧
    0x02FF ∉ writtenAddrs (accesses (.staAbs 0x0300) (code 0x0600 [0x8D, 0x00, 0x03])) :=
  ⟨by decide +kernel, steps (i := .staAbs 0x0300) (by decide +kernel), by decide +kernel, by decide +kernel⟩

/-- Two bytes from 0xFFFF on: the last byte of memory and the first, and an address that is neither. -/
theorem witness_HostWriteBytesStoresInOrder :
    (∀ k, k < [(0x11 : Byte), 0x22].length → ∀ j, j < 2 → k < j → (0xFFFF + j) % 65536 ≠ (0xFFFF + k) % 65536) ∧
    ∀ k, k < [(0x11 : Byte), 0x22].length → (0xFFFF + k) % 65536 ≠ (0x0001 : Addr).toNat := by decide

/-- Up to the end of memory, and nothing. -/
theorem witness_HostFillIsHalfOpen : 0x10000 ≤ 0x10000 ∧ (0x0300 : Nat) ≤ 0x0300 := by decide

/-- A driver over a state, its latch armed or not. -/
def driver (s : State) (armed : Bool) : NsfDriver :=
  { machine := s, playAddr := 0x8003, awaitingFirstRts := armed
    header := {
      totalSongs := 1, startingSong := 1, loadAddr := 0x8000, initAddr := 0x8000, playAddr := 0x8003, songName := []
      artist := [], copyright := [], ntscSpeed := 0, bankInit := [], palSpeed := 0, mode := 0, extraChips := 0 } }

theorem witness_FirstRtsInstallsPlayAddress :
    ((∃ t, step (driver (code 0x8000 [0x60]) true).machine = .next t) ∧
      (driver (code 0x8000 [0x60]) true).awaitingFirstRts = true ∧
      (driver (code 0x8000 [0x60]) true).machine.fetch = .ok .rts) ∧
    (∃ t, step (driver (code 0x8000 [0x60]) false).machine = .next t) ∧
    (driver (code 0x8000 [0x60]) false).awaitingFirstRts = false ∧
    (∃ t, step (driver (code 0x8000 [0xEA]) true).machine = .next t) ∧
    (driver (code 0x8000 [0xEA]) true).machine.fetch ≠ .ok .rts :=
  ⟨⟨steps (i := .rts) (by decide +kernel), rfl, by decide +kernel⟩, steps (i := .rts) (by decide +kernel), rfl,
    steps (i := .nop) (by decide +kernel), by decide +kernel⟩

theorem witness_NsfLoadSetsUpTheFirstCall :
    (∃ h, nsfHeader smallNsf = .ok h) ∧ [(0x4E : Byte), 0x45, 0x53, 0x00].take 4 ≠ nsfMagic := by
  refine ⟨?_, by decide⟩
  cases h : nsfHeader smallNsf with
  | ok v => exact ⟨v, rfl⟩
  | error e => exact absurd h (by cases e <;> decide +kernel)

end Sys2Proof.Tests
end

section
/-! Proofs: frames. What each shared operation leaves alone, composed by `Frame.trans` the way the operation is
composed from field updates. -/

namespace Sys2Proof.Machine

/-! ### Frames in general -/

theorem Frame.refl (s : State) : Frame [] [] [] s s :=
  ⟨fun _ _ => rfl, fun _ _ => rfl, fun _ _ => rfl, rfl⟩

/-- Two operations in a row write what either of them writes. -/
theorem Frame.trans {regs regs' : List Reg} {flags flags' : List Flag} {stored stored' : List Addr} {s t u : State}
    (h : Frame regs flags stored s t) (h' : Frame regs' flags' stored' t u) :
    Frame (regs ++ regs') (flags ++ flags') (stored ++ stored') s u where
  regs_same r hr := by
    rw [List.mem_append, not_or] at hr
    exact (h'.regs_same r hr.2).trans (h.regs_same r hr.1)
  flags_same f hf := by
    rw [List.mem_append, not_or] at hf
    exact (h'.flags_same f hf.2).trans (h.flags_same f hf.1)
  mem_same b hb := by
    rw [List.mem_append, not_or] at hb
    exact (h'.mem_same b hb.2).trans (h.mem_same b hb.1)
  ic_same := h'.ic_same.trans h.ic_same

/-- A frame with longer lists says less. -/
theorem Frame.mono {regs regs' : List Reg} {flags flags' : List Flag} {stored : List Addr} {s t : State}
    (h : Frame regs flags stored s t) (hregs : regs ⊆ regs') (hflags : flags ⊆ flags') :
    Frame regs' flags' stored s t :=
  { h with
    regs_same := fun r hr => h.regs_same r fun hm => hr (hregs hm)
    flags_same := fun f hf => h.flags_same f fun hm => hf (hflags hm) }

/-! ### Frames of the field updates -/

theorem setA_frame (s : State) (v : Byte) : Frame [.a] [] [] s (s.setA v) where
  regs_same r hr := by cases r <;> simp_all [State.reg]
  flags_same _ _ := rfl
  mem_same _ _ := rfl
  ic_same := rfl

theorem setX_frame (s : State) (v : Byte) : Frame [.x] [] [] s (s.setX v) where
  regs_same r hr := by cases r <;> simp_all [State.reg]
  flags_same _ _ := rfl
  mem_same _ _ := rfl
  ic_same := rfl

theorem setY_frame (s : State) (v : Byte) : Frame [.y] [] [] s (s.setY v) where
  regs_same r hr := by cases r <;> simp_all [State.reg]
  flags_same _ _ := rfl
  mem_same _ _ := rfl
  ic_same := rfl

theorem setSp_frame (s : State) (v : Byte) : Frame [.sp] [] [] s (s.setSp v) where
  regs_same r hr := by cases r <;> simp_all [State.reg]
  flags_same _ _ := rfl
  mem_same _ _ := rfl
  ic_same := rfl

theorem setPc_frame (s : State) (v : Addr) : Frame [] [] [] s (s.setPc v) where
  regs_same r _ := by cases r <;> rfl
  flags_same _ _ := rfl
  mem_same _ _ := rfl
  ic_same := rfl

theorem setSr_frame (s : State) (v : Byte) : Frame [] allFlags [] s (s.setSr v) where
  regs_same r _ := by cases r <;> rfl
  flags_same f hf := absurd (by cases f <;> decide) hf
  mem_same _ _ := rfl
  ic_same := rfl

theorem setFlag_frame (s : State) (f : Flag) (b : Bool) : Frame [] [f] [] s (s.setFlag f b) where
  regs_same r _ := by cases r <;> rfl
  flags_same g hg := by rw [flag_setFlag, if_neg (by simpa using hg)]
  mem_same _ _ := rfl
  ic_same := rfl

theorem writeByte_frame (s : State) (addr : Addr) (v : Byte) : Frame [] [] [addr] s (s.writeByte addr v) where
  regs_same r _ := by cases r <;> rfl
  flags_same _ _ := rfl
  mem_same b hb := by rw [readByte_writeByte, if_neg (by simpa using hb)]
  ic_same := rfl

/-! ### Frames of the shared operations -/

theorem setNZ_frame (s : State) (v : Byte) : Frame [] [.n, .z] [] s (s.setNZ v) :=
  (setFlag_frame s .n _).trans (setFlag_frame _ .z _)

theorem loadA_frame (s : State) (v : Byte) : Frame [.a] [.n, .z] [] s (s.loadA v) :=
  (setA_frame s v).trans (setNZ_frame _ v)

theorem loadX_frame (s : State) (v : Byte) : Frame [.x] [.n, .z] [] s (s.loadX v) :=
  (setX_frame s v).trans (setNZ_frame _ v)

theorem loadY_frame (s : State) (v : Byte) : Frame [.y] [.n, .z] [] s (s.loadY v) :=
  (setY_frame s v).trans (setNZ_frame _ v)

theorem adc_frame (s : State) (m : Byte) : Frame [.a] [.n, .v, .z, .c] [] s (s.adc m) :=
  ((((setA_frame s _).trans (setFlag_frame _ .c _)).trans (setFlag_frame _ .v _)).trans (setNZ_frame _ _)).mono
    (by decide) (by decide)

theorem sbc_frame (s : State) (m : Byte) : Frame [.a] [.n, .v, .z, .c] [] s (s.sbc m) :=
  ((((setA_frame s _).trans (setFlag_frame _ .c _)).trans (setFlag_frame _ .v _)).trans (setNZ_frame _ _)).mono
    (by decide) (by decide)

theorem compare_frame (s : State) (r m : Byte) : Frame [] [.n, .z, .c] [] s (s.compare r m) :=
  ((setFlag_frame s .c _).trans (setNZ_frame _ _)).mono (by decide) (by decide)

theorem bitTest_frame (s : State) (m : Byte) : Frame [] [.n, .v, .z] [] s (s.bitTest m) :=
  (((setFlag_frame s .z _).trans (setFlag_frame _ .n _)).trans (setFlag_frame _ .v _)).mono (by decide) (by decide)

theorem writeBack_frame (s : State) (ea : Addr) (v : Byte) : Frame [] [.n, .z] [ea] s (s.writeBack ea v) :=
  (setNZ_frame s v).trans (writeByte_frame _ ea v)

theorem modify_frame (s : State) (m : MemOperand) (f : Byte → Byte) : Frame [] [.n, .z] [s.ea m] s (s.modify m f) :=
  writeBack_frame s _ _

theorem shiftMem_frame (s : State) (m : MemOperand) (f : Byte → Byte) (carry : Byte → Bool) :
    Frame [] [.n, .z, .c] [s.ea m] s (s.shiftMem m f carry) :=
  ((setFlag_frame s .c _).trans (writeBack_frame _ _ _)).mono (by decide) (by decide)

theorem shiftAcc_frame (s : State) (f : Byte → Byte) (carry : Byte → Bool) :
    Frame [.a] [.n, .z, .c] [] s (s.shiftAcc f carry) :=
  ((setFlag_frame s .c _).trans (loadA_frame _ _)).mono (by decide) (by decide)

theorem push_frame (s : State) (v : Byte) : Frame [.sp] [] [stackAddr s.sp] s (s.push v) :=
  (writeByte_frame s _ v).trans (setSp_frame _ _)

theorem popped_frame (s : State) : Frame [.sp] [] [] s s.popped := setSp_frame s _

theorem branchIf_frame (s : State) (cond : Bool) (rel : Byte) : Frame [] [] [] s (s.branchIf cond rel) := by
  cases cond
  · exact Frame.refl s
  · exact setPc_frame s _

theorem call_frame (s : State) (target : Addr) :
    Frame [.sp] [] [stackAddr s.sp, stackAddr (s.sp - 1)] s (s.call target) :=
  (((push_frame s _).trans (push_frame _ _)).trans (setPc_frame _ target)).mono (by decide) (by decide)

theorem returnFromCall_frame (s : State) : Frame [.sp] [] [] s s.returnFromCall :=
  (((popped_frame s).trans (popped_frame _)).trans (setPc_frame _ _)).mono (by decide) (by decide)

theorem enterTrap_frame (s : State) :
    Frame [.sp] [.i] [stackAddr s.sp, stackAddr (s.sp - 1), stackAddr (s.sp - 1 - 1)] s s.enterTrap :=
  (((((push_frame s _).trans (push_frame _ _)).trans (push_frame _ _)).trans (setFlag_frame _ .i true)).trans
    (setPc_frame _ _)).mono (by decide) (by decide)

theorem returnFromTrap_frame (s : State) : Frame [.sp] allFlags [] s s.returnFromTrap :=
  (((((popped_frame s).trans (popped_frame _)).trans (popped_frame _)).trans (setSr_frame _ _)).trans
    (setPc_frame _ _)).mono (by decide) (by decide)

end Sys2Proof.Machine
end

section
/-! Proofs: what an instruction can do, said once for all 151 of them: which registers, flags and bytes it leaves alone
(10_state.md R11 to R13, R25), what becomes of memory (R27), of PC (R15) and of IC (R28). -/

namespace Sys2Proof.Machine

/-- Whether an instruction writes a register: the writers of R11, R12, R13, a shift or rotate writing A in mode ACC only. -/
def writesReg (i : Instr) (r : Reg) : Bool :=
  (regWriters r).contains i.mnemonic &&
    !(r == .a && [Mnemonic.asl, .lsr, .rol, .ror].contains i.mnemonic && i.mode != .acc)

/-- The registers an instruction writes. -/
def writtenRegs (i : Instr) : List Reg := [Reg.a, .x, .y, .sp].filter (writesReg i)

theorem mem_writtenRegs (i : Instr) (r : Reg) : r ∈ writtenRegs i ↔ writesReg i r = true := by
  cases r <;> simp [writtenRegs]

/-- The stores of an instruction in order: its pushes, then its write-back (40_step_addressing_flags.md R95). -/
def storeAccesses (i : Instr) (s : State) : List Access :=
  pushAccesses s.sp (pushedBytes i s) ++ writeBackAccesses i s

theorem branchIf_mem (s : State) (cond : Bool) (rel : Byte) : (s.branchIf cond rel).mem = s.mem := by
  cases cond <;> rfl

/-- The memory an instruction leaves is the memory it found with its stores applied. -/
theorem exec_mem {i : Instr} {s t : State} (h : exec i s = .next t) :
    t.mem = s.mem.replay (storeAccesses i s) := by
  cases i
  case bcc | bcs | bne | beq | bpl | bmi | bvc | bvs =>
    cases h
    exact branchIf_mem s _ _
  all_goals cases h; rfl

/-- The accesses of a bus keep the canonical form of memory: an address is a 16-bit value (R27). -/
theorem Memory.wf_replay (as : List Access) (m : Memory) (h : m.wf = true) : (m.replay as).wf = true := by
  induction as generalizing m with
  | nil => exact h
  | cons access as ih =>
    cases access with
    | read addr => exact ih m h
    | write addr v => exact ih _ (wf_write m addr.toNat v addr.isLt h)

/-- No instruction breaks the canonical form of memory (R27). -/
theorem exec_wf {i : Instr} {s t : State} (h : exec i s = .next t) (hwf : s.mem.wf = true) : t.mem.wf = true := by
  rw [exec_mem h]
  exact Memory.wf_replay _ _ hwf

/-- Every instruction leaves all registers, flags and bytes but those it is said to write, and the counter. -/
theorem exec_frame {i : Instr} {s t : State} (h : exec i s = .next t) :
    Frame (writtenRegs i) (declaredFlags i.mnemonic) (writtenAddrs (storeAccesses i s)) s t := by
  cases i with
  | ldaImm | ldaZp | ldaZpx | ldaAbs | ldaAbx | ldaAby | ldaIzx | ldaIzy | txa | tya
  | andImm | andZp | andZpx | andAbs | andAbx | andAby | andIzx | andIzy
  | oraImm | oraZp | oraZpx | oraAbs | oraAbx | oraAby | oraIzx | oraIzy
  | eorImm | eorZp | eorZpx | eorAbs | eorAbx | eorAby | eorIzx | eorIzy => cases h; exact loadA_frame s _
  | ldxImm | ldxZp | ldxZpy | ldxAbs | ldxAby | tax | tsx | inx | dex => cases h; exact loadX_frame s _
  | ldyImm | ldyZp | ldyZpx | ldyAbs | ldyAbx | tay | iny | dey => cases h; exact loadY_frame s _
  | staZp | staZpx | staAbs | staAbx | staAby | staIzx | staIzy | stxZp | stxZpy | stxAbs
  | styZp | styZpx | styAbs => cases h; exact writeByte_frame s _ _
  | txs => cases h; exact setSp_frame s _
  | pha | php => cases h; exact push_frame s _
  | pla => cases h; exact ((popped_frame s).trans (loadA_frame _ _)).mono (by decide) (by decide)
  | plp => cases h; exact (popped_frame s).trans (setSr_frame _ _)
  | bitZp | bitAbs => cases h; exact bitTest_frame s _
  | adcImm | adcZp | adcZpx | adcAbs | adcAbx | adcAby | adcIzx | adcIzy => cases h; exact adc_frame s _
  | sbcImm | sbcZp | sbcZpx | sbcAbs | sbcAbx | sbcAby | sbcIzx | sbcIzy => cases h; exact sbc_frame s _
  | cmpImm | cmpZp | cmpZpx | cmpAbs | cmpAbx | cmpAby | cmpIzx | cmpIzy
  | cpxImm | cpxZp | cpxAbs | cpyImm | cpyZp | cpyAbs => cases h; exact compare_frame s _ _
  | incZp | incZpx | incAbs | incAbx | decZp | decZpx | decAbs | decAbx => cases h; exact modify_frame s _ _
  | aslAcc | lsrAcc | rolAcc | rorAcc => cases h; exact shiftAcc_frame s _ _
  | aslZp | aslZpx | aslAbs | aslAbx | lsrZp | lsrZpx | lsrAbs | lsrAbx
  | rolZp | rolZpx | rolAbs | rolAbx | rorZp | rorZpx | rorAbs | rorAbx => cases h; exact shiftMem_frame s _ _ _
  | jmpAbs | jmpInd => cases h; exact setPc_frame s _
  | jsrAbs => cases h; exact call_frame s _
  | rts => cases h; exact returnFromCall_frame s
  | rti => cases h; exact returnFromTrap_frame s
  | bcc | bcs | bne | beq | bpl | bmi | bvc | bvs => cases h; exact branchIf_frame s _ _
  | clc | sec | cld | sed | cli | sei | clv => cases h; exact setFlag_frame s _ _
  | brk => cases h; exact enterTrap_frame s
  | nop => cases h; exact Frame.refl s

/-- Only PLP and RTI declare B. -/
theorem b_mem_declaredFlags_iff (i : Instr) : Flag.b ∈ declaredFlags i.mnemonic ↔ i = .plp ∨ i = .rti := by
  cases i <;> simp [Instr.mnemonic, declaredFlags, allFlags]

/-- B stays 0: PLP and RTI load it as 0, and nothing else declares it (R20; decisions D2, D4). -/
theorem exec_flag_b {i : Instr} {s t : State} (h : exec i s = .next t) (hb : s.flag .b = false) : t.flag .b = false := by
  by_cases hdecl : Flag.b ∈ declaredFlags i.mnemonic
  · obtain rfl | rfl := (b_mem_declaredFlags_iff i).1 hdecl
    · cases h
      exact Flag.get_loadedStatus .b s.popValue
    · cases h
      exact Flag.get_loadedStatus .b s.popValue
  · rw [(exec_frame h).flags_same .b hdecl, hb]

/-- Outside the instructions of R15 a meaning leaves PC where the operand fetch put it. -/
theorem exec_pc {i : Instr} {s t : State} (h : exec i s = .next t) (hpc : i.mnemonic ∉ pcWriters) : t.pc = s.pc := by
  cases i
  case jmpAbs | jmpInd | jsrAbs | rts | rti | brk | bcc | bcs | bne | beq | bpl | bmi | bvc | bvs =>
    simp [Instr.mnemonic, pcWriters] at hpc
  all_goals cases h; rfl

theorem branchIf_setIc (s : State) (n : Nat) (cond : Bool) (rel : Byte) :
    (s.setIc n).branchIf cond rel = (s.branchIf cond rel).setIc n := by
  cases cond <;> rfl

/-- No instruction reads IC or writes it (R28). -/
theorem exec_setIc {i : Instr} {s t : State} (n : Nat) (h : exec i s = .next t) :
    exec i (s.setIc n) = .next (t.setIc n) := by
  cases i
  case bcc | bcs | bne | beq | bpl | bmi | bvc | bvs =>
    cases h
    exact congrArg _ (branchIf_setIc s n _ _)
  all_goals cases h; rfl

end Sys2Proof.Machine
end

section
/-! Proofs: two runs of one instruction from states that differ in one storage flag (10_state.md R19 to R22). -/

namespace Sys2Proof.Machine

/-- Two states that differ at most in memory and in the one flag `f`. Memory is left out: PHP and BRK push the flag. -/
structure Alike (f : Flag) (s u : State) : Prop where
  /-- PC, A, X, Y, SP and IC are the same. -/
  rest_same : (u.setSr 0).setMem [] = (s.setSr 0).setMem []
  flags_same : ∀ g, g ≠ f → u.flag g = s.flag g

theorem alike_setFlag (s : State) (f : Flag) (value : Bool) : Alike f s (s.setFlag f value) :=
  ⟨rfl, fun g hg => by rw [flag_setFlag, if_neg hg]⟩

/-! The shared operations keep two states alike. -/

namespace Alike

variable {f : Flag} {s u : State} (h : Alike f s u)
include h

theorem pc_same : u.pc = s.pc := (congrArg State.pc h.rest_same :)

theorem ic_same : u.ic = s.ic := (congrArg State.ic h.rest_same :)

theorem reg_same (r : Reg) : u.reg r = s.reg r := by
  cases r
  · exact (congrArg State.a h.rest_same :)
  · exact (congrArg State.x h.rest_same :)
  · exact (congrArg State.y h.rest_same :)
  · exact (congrArg State.sp h.rest_same :)

theorem setPc {v w : Addr} (hw : w = v) : Alike f (s.setPc v) (u.setPc w) :=
  hw ▸ ⟨congrArg (State.setPc · w) h.rest_same, h.flags_same⟩

theorem setA (v : Byte) : Alike f (s.setA v) (u.setA v) :=
  ⟨congrArg (State.setA · v) h.rest_same, h.flags_same⟩

theorem setX (v : Byte) : Alike f (s.setX v) (u.setX v) :=
  ⟨congrArg (State.setX · v) h.rest_same, h.flags_same⟩

theorem setY (v : Byte) : Alike f (s.setY v) (u.setY v) :=
  ⟨congrArg (State.setY · v) h.rest_same, h.flags_same⟩

theorem setSp (v : Byte) : Alike f (s.setSp v) (u.setSp v) :=
  ⟨congrArg (State.setSp · v) h.rest_same, h.flags_same⟩

theorem setSr (v : Byte) : Alike f (s.setSr v) (u.setSr v) := ⟨h.rest_same, fun _ _ => rfl⟩

theorem setFlag (g : Flag) (b : Bool) : Alike f (s.setFlag g b) (u.setFlag g b) :=
  ⟨h.rest_same, fun k hk => by simp only [flag_setFlag, h.flags_same k hk]⟩

theorem writeByte (addr addr' : Addr) (v v' : Byte) : Alike f (s.writeByte addr v) (u.writeByte addr' v') :=
  ⟨h.rest_same, h.flags_same⟩

theorem setNZ (v : Byte) : Alike f (s.setNZ v) (u.setNZ v) := (h.setFlag .n _).setFlag .z _

theorem loadA (v : Byte) : Alike f (s.loadA v) (u.loadA v) := (h.setA v).setNZ v

theorem loadX (v : Byte) : Alike f (s.loadX v) (u.loadX v) := (h.setX v).setNZ v

theorem loadY (v : Byte) : Alike f (s.loadY v) (u.loadY v) := (h.setY v).setNZ v

theorem adc (hc : u.flag .c = s.flag .c) (m : Byte) : Alike f (s.adc m) (u.adc m) := by
  have ha : u.a = s.a := h.reg_same .a
  simp only [State.adc, ha, hc]
  exact (((h.setA _).setFlag .c _).setFlag .v _).setNZ _

theorem sbc (hc : u.flag .c = s.flag .c) (m : Byte) : Alike f (s.sbc m) (u.sbc m) := by
  have ha : u.a = s.a := h.reg_same .a
  simp only [State.sbc, ha, hc]
  exact (((h.setA _).setFlag .c _).setFlag .v _).setNZ _

theorem compare (r m : Byte) : Alike f (s.compare r m) (u.compare r m) := (h.setFlag .c _).setNZ _

theorem bitTest (m : Byte) : Alike f (s.bitTest m) (u.bitTest m) := by
  have ha : u.a = s.a := h.reg_same .a
  simp only [State.bitTest, ha]
  exact ((h.setFlag .z _).setFlag .n _).setFlag .v _

theorem writeBack (ea : Addr) (v : Byte) : Alike f (s.writeBack ea v) (u.writeBack ea v) :=
  (h.setNZ v).writeByte _ _ _ _

theorem push (v w : Byte) : Alike f (s.push v) (u.push w) :=
  ⟨congrArg (fun t => t.setSp (t.sp - 1)) h.rest_same, h.flags_same⟩

theorem popped : Alike f s.popped u.popped := ⟨congrArg State.popped h.rest_same, h.flags_same⟩

theorem branchIf {cond cond' : Bool} (hcond : cond' = cond) (rel : Byte) :
    Alike f (s.branchIf cond rel) (u.branchIf cond' rel) := by
  subst hcond
  cases cond'
  · exact h
  · exact h.setPc (by rw [h.pc_same])

end Alike

/-- The trap's target is the word at the vector, which the pushes do not reach. -/
theorem alike_enterTrap_setFlag (s : State) (f : Flag) (value : Bool) :
    Alike f s.enterTrap (s.setFlag f value).enterTrap := by
  have hpc : (s.setFlag f value).enterTrap.pc = s.enterTrap.pc :=
    (enterTrap_spec (s.setFlag f value)).1.trans (enterTrap_spec s).1.symm
  exact (((((alike_setFlag s f value).push _ _).push _ _).push _ _).setFlag .i true).setPc hpc

/-- Of the trap's three bytes only the status byte shows a flag. -/
theorem readByte_enterTrap_setFlag (s : State) (f : Flag) (value : Bool) {addr : Addr}
    (h : addr ≠ stackAddr (s.sp - 1 - 1)) :
    (s.setFlag f value).enterTrap.readByte addr = s.enterTrap.readByte addr := by
  rw [readByte_enterTrap, readByte_enterTrap, setFlag_sp, if_neg h, if_neg h]
  rfl

/-- An instruction acts on C, Z, N and V only: states that differ in another flag give states that differ in no more. -/
theorem exec_alike (i : Instr) (s : State) {f : Flag} (value : Bool) (hf : f ∈ [Flag.u, .b, .d, .i]) :
    ∃ t u, exec i s = .next t ∧ exec i (s.setFlag f value) = .next u ∧ Alike f t u := by
  have h := alike_setFlag s f value
  have hread : ∀ g ∉ [Flag.u, .b, .d, .i], (s.setFlag f value).flag g = s.flag g := fun g hg =>
    h.flags_same g (ne_of_mem_of_not_mem hf hg).symm
  have hc := hread .c (by decide)
  have hz := hread .z (by decide)
  have hn := hread .n (by decide)
  have hv := hread .v (by decide)
  cases i with
  | ldaImm | ldaZp | ldaZpx | ldaAbs | ldaAbx | ldaAby | ldaIzx | ldaIzy | txa | tya
  | andImm | andZp | andZpx | andAbs | andAbx | andAby | andIzx | andIzy
  | oraImm | oraZp | oraZpx | oraAbs | oraAbx | oraAby | oraIzx | oraIzy
  | eorImm | eorZp | eorZpx | eorAbs | eorAbx | eorAby | eorIzx | eorIzy => exact ⟨_, _, rfl, rfl, h.loadA _⟩
  | ldxImm | ldxZp | ldxZpy | ldxAbs | ldxAby | tax | tsx | inx | dex => exact ⟨_, _, rfl, rfl, h.loadX _⟩
  | ldyImm | ldyZp | ldyZpx | ldyAbs | ldyAbx | tay | iny | dey => exact ⟨_, _, rfl, rfl, h.loadY _⟩
  | staZp | staZpx | staAbs | staAbx | staAby | staIzx | staIzy | stxZp | stxZpy | stxAbs
  | styZp | styZpx | styAbs => exact ⟨_, _, rfl, rfl, h.writeByte _ _ _ _⟩
  | txs => exact ⟨_, _, rfl, rfl, h.setSp _⟩
  | pha | php => exact ⟨_, _, rfl, rfl, h.push _ _⟩
  | pla => exact ⟨_, _, rfl, rfl, h.popped.loadA _⟩
  | plp => exact ⟨_, _, rfl, rfl, h.popped.setSr _⟩
  | bitZp | bitAbs => exact ⟨_, _, rfl, rfl, h.bitTest _⟩
  | adcImm | adcZp | adcZpx | adcAbs | adcAbx | adcAby | adcIzx | adcIzy => exact ⟨_, _, rfl, rfl, h.adc hc _⟩
  | sbcImm | sbcZp | sbcZpx | sbcAbs | sbcAbx | sbcAby | sbcIzx | sbcIzy => exact ⟨_, _, rfl, rfl, h.sbc hc _⟩
  | cmpImm | cmpZp | cmpZpx | cmpAbs | cmpAbx | cmpAby | cmpIzx | cmpIzy
  | cpxImm | cpxZp | cpxAbs | cpyImm | cpyZp | cpyAbs => exact ⟨_, _, rfl, rfl, h.compare _ _⟩
  | incZp | incZpx | incAbs | incAbx | decZp | decZpx | decAbs | decAbx =>
    exact ⟨_, _, rfl, rfl, h.writeBack _ _⟩
  | aslAcc | lsrAcc => exact ⟨_, _, rfl, rfl, (h.setFlag .c _).loadA _⟩
  | rolAcc | rorAcc =>
    refine ⟨_, _, rfl, rfl, ?_⟩
    rw [hc]
    exact (h.setFlag .c _).loadA _
  | aslZp | aslZpx | aslAbs | aslAbx | lsrZp | lsrZpx | lsrAbs | lsrAbx =>
    exact ⟨_, _, rfl, rfl, (h.setFlag .c _).writeBack _ _⟩
  | rolZp | rolZpx | rolAbs | rolAbx | rorZp | rorZpx | rorAbs | rorAbx =>
    refine ⟨_, _, rfl, rfl, ?_⟩
    rw [hc]
    exact (h.setFlag .c _).writeBack _ _
  | jmpAbs | jmpInd => exact ⟨_, _, rfl, rfl, h.setPc rfl⟩
  | jsrAbs => exact ⟨_, _, rfl, rfl, ((h.push _ _).push _ _).setPc rfl⟩
  | rts => exact ⟨_, _, rfl, rfl, h.popped.popped.setPc rfl⟩
  | rti => exact ⟨_, _, rfl, rfl, (h.popped.popped.popped.setSr _).setPc rfl⟩
  | bcc => exact ⟨_, _, rfl, rfl, h.branchIf (congrArg not hc) _⟩
  | bcs => exact ⟨_, _, rfl, rfl, h.branchIf hc _⟩
  | bne => exact ⟨_, _, rfl, rfl, h.branchIf (congrArg not hz) _⟩
  | beq => exact ⟨_, _, rfl, rfl, h.branchIf hz _⟩
  | bpl => exact ⟨_, _, rfl, rfl, h.branchIf (congrArg not hn) _⟩
  | bmi => exact ⟨_, _, rfl, rfl, h.branchIf hn _⟩
  | bvc => exact ⟨_, _, rfl, rfl, h.branchIf (congrArg not hv) _⟩
  | bvs => exact ⟨_, _, rfl, rfl, h.branchIf hv _⟩
  | clc | sec | cld | sed | cli | sei | clv => exact ⟨_, _, rfl, rfl, h.setFlag _ _⟩
  | brk => exact ⟨_, _, rfl, rfl, alike_enterTrap_setFlag s f value⟩
  | nop => exact ⟨_, _, rfl, rfl, h⟩

/-- The pushed copy of SR shows B as 1 whatever B is. -/
theorem pushedStatus_put_b (value : Bool) (sr : Byte) : pushedStatus (Flag.b.put value sr) = pushedStatus sr :=
  Flag.ext_of_get fun f => by by_cases hf : f = .b <;> simp [Flag.get_pushedStatus, Flag.get_put, hf]

theorem pushedBytes_setFlag {i : Instr} {f : Flag} (s : State) (value : Bool)
    (h : i.mnemonic ∉ [Mnemonic.php, .brk] ∨ f = .b) : pushedBytes i (s.setFlag f value) = pushedBytes i s := by
  obtain hm | rfl := h
  · unfold pushedBytes
    split <;> simp_all
  · have hp : pushedStatus (s.setFlag .b value).sr = pushedStatus s.sr := pushedStatus_put_b value s.sr
    simp [pushedBytes, hp]

theorem writeBackAccesses_setFlag (i : Instr) (s : State) {f : Flag} (value : Bool) (hf : f ≠ .c) :
    writeBackAccesses i (s.setFlag f value) = writeBackAccesses i s := by
  have hc : (s.setFlag f value).flag .c = s.flag .c := (alike_setFlag s f value).flags_same .c hf.symm
  have hea (m) : (s.setFlag f value).ea m = s.ea m := by cases m <;> rfl
  simp [writeBackAccesses, setterResult, State.load, hea, hc]

/-- A storage flag reaches memory through the status byte of PHP and BRK only, and B not even there. -/
theorem exec_mem_setFlag {i : Instr} {s t u : State} {f : Flag} {value : Bool} (hf : f ≠ .c)
    (hpush : i.mnemonic ∉ [Mnemonic.php, .brk] ∨ f = .b) (ht : exec i s = .next t)
    (hu : exec i (s.setFlag f value) = .next u) : u.mem = t.mem := by
  rw [exec_mem ht, exec_mem hu, storeAccesses, storeAccesses, pushedBytes_setFlag s value hpush,
    writeBackAccesses_setFlag i s value hf, setFlag_mem, setFlag_sp]

end Sys2Proof.Machine
end

section
/-! Proofs: the statements of 10_state.md. -/

namespace Sys2Proof.Machine

/-- Settles O14, by the two halves `exec_wf` and `exec_flag_b`; counting touches neither memory nor SR. -/
theorem stepKeepsTheInvariant : Obligations.StepKeepsTheInvariant := by
  intro s t ⟨hwf, hb⟩ hstep
  obtain ⟨i, u, -, hexec, rfl⟩ := (step_next_iff s t).1 hstep
  exact ⟨exec_wf (t := u) hexec hwf, exec_flag_b (t := u) hexec hb⟩

/-- Settles O11: `step` adds the length before the meaning runs, and the meaning leaves PC. -/
theorem pcAdvancesByTheLength : Obligations.PcAdvancesByTheLength := by
  intro s t i hfetch hpc hstep
  obtain ⟨j, u, hj, hexec, rfl⟩ := (step_next_iff s t).1 hstep
  cases hj.symm.trans hfetch
  rw [countInstruction_pc, exec_pc hexec hpc]
  simp [BitVec.toNat_add]

/-- Settles O51, by the flags of the instruction's frame. -/
theorem undeclaredFlagsAreUnchanged : Obligations.UndeclaredFlagsAreUnchanged := by
  intro i s
  obtain ⟨t, ht⟩ := exec_next i s
  exact ⟨t, ht, (exec_frame ht).flags_same⟩

/-- Settles O52, by the registers of the instruction's frame. -/
theorem onlyNamedInstructionsWriteARegister : Obligations.OnlyNamedInstructionsWriteARegister := by
  intro i s t h
  have hregs : ∀ r, writesReg i r = false → t.reg r = s.reg r := fun r hr =>
    (exec_frame h).regs_same r (by simp [mem_writtenRegs, hr])
  refine ⟨fun r hr => hregs r ?_, fun hshift hmode => hregs .a ?_⟩
  · simp [writesReg, hr]
  · simp [writesReg, hmode, hshift]

/-- Settles O53: `exec_alike` for everything but memory, the stores of the two runs for memory. -/
theorem storageFlagsDecideNothing : Obligations.StorageFlagsDecideNothing := by
  intro i s f value hf
  obtain ⟨t, u, ht, hu, h⟩ := exec_alike i s value hf
  refine ⟨t, u, ht, hu, h.pc_same, h.ic_same, h.reg_same, h.flags_same, fun hpush => ?_, fun hi => ?_, fun hi => ?_⟩
  · exact exec_mem_setFlag (ne_of_mem_of_not_mem hf (by decide)) hpush ht hu
  · intro addr haddr
    cases i <;> cases hi
    cases ht
    cases hu
    exact ((push_frame (s.setFlag f value) _).mem_same addr (by simpa using haddr)).trans
      ((push_frame s _).mem_same addr (by simpa using haddr)).symm
  · intro addr haddr
    cases i <;> cases hi
    cases ht
    cases hu
    exact readByte_enterTrap_setFlag s f value (by rwa [sub_sub])

/-- Settles O54: fetching does not read IC, and `exec` commutes with setting it. -/
theorem theCounterIsNotObservable : Obligations.TheCounterIsNotObservable := by
  intro s t n hstep
  obtain ⟨i, u, hfetch, hexec, rfl⟩ := (step_next_iff s t).1 hstep
  have hfetch' : (s.setIc n).fetch = .ok i := (fetch_congr (setIc_mem s n) (setIc_pc s n)).trans hfetch
  exact (step_next_iff (s.setIc n) _).2 ⟨i, u.setIc n, hfetch', exec_setIc n hexec, rfl⟩

/-- Settles O12; an empty memory list reads 0x00 everywhere. -/
theorem resetState : Obligations.ResetState :=
  ⟨rfl, rfl, rfl, rfl, rfl, rfl, fun _ => rfl, rfl⟩

/-- Settles O13; the base case of O14. -/
theorem invariantHoldsAtReset : Obligations.InvariantHoldsAtReset :=
  ⟨Memory.wf_nil, rfl⟩

end Sys2Proof.Machine
end

section
/-! Proofs: addresses as the numbers the memory rules write, and the stack as a sequence of pushes and pops
(20_memory.md R34, R35, R40 to R42). -/

namespace Sys2Proof.Machine

/-! ### Addresses as numbers -/

theorem zeroPage_eq_ofNat (p : Byte) : zeroPage p = BitVec.ofNat 16 p.toNat := (BitVec.ofNat_toNat 16 p).symm

theorem stackAddr_eq_ofNat (sp : Byte) : stackAddr sp = BitVec.ofNat 16 (0x0100 + sp.toNat) := by
  rw [← stackAddr_toNat, BitVec.ofNat_toNat, BitVec.setWidth_eq]

theorem add_one_eq_ofNat (addr : Addr) : addr + 1 = BitVec.ofNat 16 ((addr.toNat + 1) % 65536) := by
  bv_omega

theorem byte_add_one_toNat (p : Byte) : (p + 1).toNat = (p.toNat + 1) % 256 := by
  bv_omega

theorem byte_sub_one_toNat (p : Byte) : (p - 1).toNat = (p.toNat + 255) % 256 := by
  bv_omega

/-! ### One push, one pop -/

@[simp] theorem readByte_writeByte_self (s : State) (addr : Addr) (v : Byte) :
    (s.writeByte addr v).readByte addr = v := by
  rw [readByte_writeByte, if_pos rfl]

@[simp] theorem readByte_push_self (s : State) (v : Byte) : (s.push v).readByte (stackAddr s.sp) = v := by
  rw [readByte_push, if_pos rfl]

@[simp] theorem popValue_push (s : State) (v : Byte) : (s.push v).popValue = v := by
  rw [State.popValue, push_sp, BitVec.sub_add_cancel, readByte_push_self]

/-- A pop takes back the decrement of a push; the pushed byte stays where it was stored. -/
theorem popped_push (s : State) (v : Byte) : (s.push v).popped = s.writeByte (stackAddr s.sp) v := by
  show (s.writeByte (stackAddr s.sp) v).setSp (s.sp - 1 + 1) = _
  rw [BitVec.sub_add_cancel]
  rfl

/-! ### Many pushes, many pops -/

theorem pushAll_concat (s : State) (vs : List Byte) (v : Byte) : s.pushAll (vs ++ [v]) = (s.pushAll vs).push v := by
  induction vs generalizing s with
  | nil => rfl
  | cons w vs ih => exact ih (s.push w)

theorem pushAll_sp (s : State) (vs : List Byte) : (s.pushAll vs).sp = s.sp - BitVec.ofNat 8 vs.length := by
  induction vs generalizing s with
  | nil => exact (BitVec.sub_zero s.sp).symm
  | cons w vs ih =>
    rw [State.pushAll, ih, push_sp, List.length_cons]
    bv_omega

/-- Pops that stop short of the byte at `stackAddr p` do not see what is stored there. `p - (s.sp + 1)` is the number of
pops before that byte is read. -/
theorem popValues_writeByte (s : State) (p v : Byte) (n : Nat) (h : n ≤ (p - (s.sp + 1)).toNat) :
    (s.writeByte (stackAddr p) v).popValues n = s.popValues n := by
  induction n generalizing s with
  | zero => rfl
  | succ n ih =>
    have hne : s.sp + 1 ≠ p := by rintro rfl; simp at h
    have hrest : n ≤ (p - (s.popped.sp + 1)).toNat := by rw [popped_sp]; bv_omega
    have hread : (s.writeByte (stackAddr p) v).popValue = s.popValue :=
      (readByte_writeByte s _ _ v).trans (if_neg (mt (stackAddr_inj _ _).1 hne))
    exact congrArg₂ List.cons hread (ih s.popped hrest)

/-- The first of `n + 1` pops gives back the last push; the other `n` do not come round to its byte. -/
theorem popValues_push (s : State) (v : Byte) (n : Nat) (h : n < 256) :
    (s.push v).popValues (n + 1) = v :: s.popValues n := by
  have hfar : n ≤ (s.sp - (s.sp + 1)).toNat := by bv_omega
  rw [State.popValues, popValue_push, popped_push, popValues_writeByte s s.sp v n hfar]

/-- Up to 256 bytes come back in reverse (20_memory.md R42). -/
theorem popValues_pushAll (s : State) (vs : List Byte) (h : vs.length ≤ 256) :
    (s.pushAll vs).popValues vs.length = vs.reverse := by
  induction vs using List.reverseRecOn with
  | nil => rfl
  | append_singleton vs v ih =>
    rw [List.length_append, List.length_singleton] at h ⊢
    rw [pushAll_concat, popValues_push _ _ _ (by omega), ih (by omega), List.reverse_concat]

/-- 256 pushes go once round the stack page (20_memory.md R42). -/
theorem pushAll_sp_of_length_256 (s : State) (vs : List Byte) (h : vs.length = 256) : (s.pushAll vs).sp = s.sp := by
  rw [pushAll_sp, h]
  exact BitVec.sub_zero s.sp

end Sys2Proof.Machine
end

section
/-! Proofs: the statements of 20_memory.md. -/

namespace Sys2Proof.Machine

/-- Settles O18; the address is taken from SP before the decrement. -/
theorem pushStoresThenDecrements : Obligations.PushStoresThenDecrements := by
  intro s v
  rw [← stackAddr_eq_ofNat]
  exact ⟨readByte_push_self s v, byte_sub_one_toNat s.sp, rfl, push_frame s v⟩

/-- Settles O19; the address is taken from SP after the increment. -/
theorem popIncrementsThenLoads : Obligations.PopIncrementsThenLoads := by
  intro s
  rw [← byte_add_one_toNat, ← stackAddr_eq_ofNat]
  exact ⟨rfl, rfl, rfl, popped_frame s⟩

/-- Settles O20: `popValues_pushAll` for the reversal, `pushAll_sp_of_length_256` for the 257th push. -/
theorem stackWrapsAndReverses : Obligations.StackWrapsAndReverses := by
  intro s
  refine ⟨fun hsp v => ?_, fun hsp => ?_, popValues_pushAll s, fun vs hlen => ?_⟩
  · have hstored := readByte_push_self s v
    rw [hsp] at hstored
    exact ⟨hstored, by rw [push_sp, hsp]; rfl, rfl⟩
  · exact ⟨by rw [State.popValue, hsp]; rfl, by rw [popped_sp, hsp]; rfl, rfl⟩
  · have hsp := pushAll_sp_of_length_256 s vs hlen
    exact ⟨hsp, fun v => by rw [← hsp, readByte_push_self]⟩

/-- Settles O16; every address is writable. -/
theorem storeChangesOneByte : Obligations.StoreChangesOneByte := fun s addr v =>
  ⟨readByte_writeByte_self s addr v, rfl, rfl, writeByte_frame s addr v⟩

/-- Settles O17; the two wraps are those of the 16-bit and of the 8-bit addition. -/
theorem wordsAreLittleEndian : Obligations.WordsAreLittleEndian := by
  intro s addr p
  rw [← add_one_eq_ofNat, ← byte_add_one_toNat, ← zeroPage_eq_ofNat, ← zeroPage_eq_ofNat]
  exact ⟨makeWord_toNat _ _, makeWord_toNat _ _⟩

end Sys2Proof.Machine
end

section
/-! Proofs: the decoder through its forms. What a form makes of its operand bytes, when a byte list decodes, and that
the matrix of R55 and the table of R59 give each instruction the same opcode and operand bytes (30_encoding.md R50 to
R56). -/

namespace Sys2Proof

open Machine

/-! ### Decoding in terms of forms -/

/-- `f.Makes args i`: with the operand bytes `args` the form `f` is the instruction `i`. A word is split into its two
bytes, low byte first (30_encoding.md R52). -/
inductive Form.Makes : Form → List Byte → Instr → Prop
  | one (i : Instr) : Makes (.one i) [] i
  | two (make : Byte → Instr) (b : Byte) : Makes (.two make) [b] (make b)
  | three (make : Addr → Instr) (w : Addr) : Makes (.three make) [loByte w, hiByte w] (make w)

/-- Two bytes are one word's bytes, so a three-byte form takes any two. -/
theorem Form.Makes.of_bytes (make : Addr → Instr) (lo hi : Byte) :
    (Form.three make).Makes [lo, hi] (make (makeWord hi lo)) := by
  have h := Makes.three make (makeWord hi lo)
  rwa [loByte_makeWord, hiByte_makeWord] at h

/-- Two bytes are enough for any form (30_encoding.md R51). -/
theorem Form.exists_makes (f : Form) (b1 b2 : Byte) : ∃ args i rest, f.Makes args i ∧ [b1, b2] = args ++ rest := by
  cases f with
  | one i => exact ⟨[], i, [b1, b2], .one i, rfl⟩
  | two make => exact ⟨[b1], make b1, [b2], .two make b1, rfl⟩
  | three make => exact ⟨[b1, b2], make (makeWord b2 b1), [], .of_bytes make b1 b2, rfl⟩

theorem decode_of_unassigned {op : Byte} (h : dispatch op = none) (rest : List Byte) :
    decode (op :: rest) = .error (.unassignedOpcode op) := by
  simp [decode, h]

theorem decode_of_makes {op : Byte} {f : Form} {args : List Byte} {i : Instr} (hd : dispatch op = some f)
    (hm : f.Makes args i) (rest : List Byte) : decode (op :: (args ++ rest)) = .ok (i, rest) := by
  cases hm with
  | one => simp [decode, hd]
  | two => simp [decode, hd]
  | three => simp [decode, hd, makeWord_hiByte_loByte]

/-- Inversion of `decode`: the first byte selects a form, which makes the instruction of the bytes before `rest`. -/
theorem makes_of_decode {bs rest : List Byte} {i : Instr} (h : decode bs = .ok (i, rest)) :
    ∃ op f args, dispatch op = some f ∧ f.Makes args i ∧ bs = op :: (args ++ rest) := by
  unfold decode at h
  split at h
  case h_1 => cases h
  case h_2 op tail =>
    split at h
    case h_1 => cases h
    case h_2 j hd =>
      cases h
      exact ⟨op, .one i, [], hd, .one i, rfl⟩
    case h_3 make hd =>
      split at h <;> cases h
      exact ⟨op, .two make, [_], hd, .two make _, rfl⟩
    case h_4 make hd =>
      split at h <;> cases h
      exact ⟨op, .three make, [_, _], hd, .of_bytes make _ _, rfl⟩

/-! ### Encoding and the matrix -/

/-- The opcode byte of an instruction's mnemonic and mode (30_encoding.md R59). -/
def Instr.opcode (i : Instr) : Option Byte := (opcodesOf i.mnemonic).lookup i.mode

theorem Instr.opcode_congr {i j : Instr} (hm : i.mnemonic = j.mnemonic) (hmode : i.mode = j.mode) :
    i.opcode = j.opcode := by
  rw [opcode, opcode, hm, hmode]

theorem encode_of_opcode {i : Instr} {op : Byte} (h : i.opcode = some op) : encode i = op :: i.operand.bytes := by
  simp only [Instr.opcode] at h
  simp [encode, h]

theorem Operand.length_bytes (o : Operand) : o.bytes.length = o.mode.operandCount := by
  cases o with
  | mem m => cases m <;> rfl
  | _ => rfl

/-- An instruction's opcode selects a form that makes it, and whatever else the form makes has that opcode and the
operand bytes it was made of. For each constructor the two tables compute to its one opcode and form. -/
theorem Instr.exists_form (i : Instr) :
    ∃ op f, i.opcode = some op ∧ dispatch op = some f ∧ f.Makes i.operand.bytes i ∧
      ∀ args j, f.Makes args j → j.opcode = some op ∧ j.operand.bytes = args := by
  cases i <;> exact ⟨_, _, rfl, rfl, by constructor, fun _ _ h => by cases h; exact ⟨rfl, rfl⟩⟩

theorem opcode_sample {op : Byte} {f : Form} (hd : dispatch op = some f) : f.sample.opcode = some op := by
  have h := List.all_eq_true.1 matrix_agrees_with_opcodes op (mem_allBytes op)
  rw [hd] at h
  exact eq_of_beq h

/-- What the matrix makes has, by R59, the opcode and operand bytes it was made of: the form is that of its sample. -/
theorem opcode_of_makes {op : Byte} {f : Form} {args : List Byte} {i : Instr} (hd : dispatch op = some f)
    (hm : f.Makes args i) : i.opcode = some op ∧ i.operand.bytes = args := by
  obtain ⟨op', f', hop', hd', -, hform⟩ := f.sample.exists_form
  cases hop'.symm.trans (opcode_sample hd)
  cases hd'.symm.trans hd
  exact hform args i hm

/-- The first byte of what decodes is the opcode of what it decodes to (30_encoding.md R50). -/
theorem opcode_of_decode {op : Byte} {tail rest : List Byte} {i : Instr} (h : decode (op :: tail) = .ok (i, rest)) :
    i.opcode = some op := by
  obtain ⟨_, f, args, hd, hm, hbytes⟩ := makes_of_decode h
  cases hbytes
  exact (opcode_of_makes hd hm).1

/-- R55 and R56 say the same of every byte. -/
theorem matrix_agrees_with_unassignedOpcodes :
    (allBytes.all fun op => decide (op ∈ unassignedOpcodes) == (dispatch op).isNone) = true := by
  decide +kernel

/-- The list of R56 holds exactly the bytes the matrix of R55 leaves empty. -/
theorem mem_unassignedOpcodes_iff (op : Byte) : op ∈ unassignedOpcodes ↔ dispatch op = none := by
  have hop := eq_of_beq (List.all_eq_true.1 matrix_agrees_with_unassignedOpcodes op (mem_allBytes op))
  rw [← Option.isNone_iff_eq_none, ← hop, decide_eq_true_iff]

end Sys2Proof
end

section
/-! Proofs: the statements of 30_encoding.md. -/

namespace Sys2Proof.Machine

/-- Settles O1: the opcode's form makes the instruction of its own operand bytes. -/
theorem decodeOfEncodeIsTheInstruction : Obligations.DecodeOfEncodeIsTheInstruction := by
  intro i rest _
  obtain ⟨op, f, hop, hd, hm, -⟩ := i.exists_form
  rw [encode_of_opcode hop]
  exact decode_of_makes hd hm rest

/-- Settles O2, by `makes_of_decode` for the bytes read and `opcode_of_makes` for the encoding. -/
theorem decodedBytesAreTheEncoding : Obligations.DecodedBytesAreTheEncoding := by
  intro bs i rest h
  obtain ⟨op, f, args, hd, hm, rfl⟩ := makes_of_decode h
  obtain ⟨hop, rfl⟩ := opcode_of_makes hd hm
  rw [encode_of_opcode hop]
  refine ⟨rfl, ?_, i.wellFormed⟩
  rw [List.length_cons, Operand.length_bytes, Instr.length, Instr.mode, Nat.add_comm]

/-- Settles O3: the first byte is the one R59 gives the mnemonic and mode. -/
theorem oneOpcodePerMnemonicAndMode : Obligations.OneOpcodePerMnemonicAndMode := by
  intro op op' bs bs' rest rest' i i' h h' hmnemonic hmode
  have hsome : some op = some op' := by
    rw [← opcode_of_decode h, ← opcode_of_decode h', Instr.opcode_congr hmnemonic hmode]
  exact Option.some.inj hsome

/-- Settles O4: the listed bytes are the empty cells of the matrix, and an assigned byte's form asks for two bytes at
most. -/
theorem everyOpcodeByteIsAnInstructionOrAFault : Obligations.EveryOpcodeByteIsAnInstructionOrAFault := by
  intro op
  rw [mem_unassignedOpcodes_iff]
  refine ⟨fun hnone => ⟨decode_of_unassigned hnone, fun s hs => ?_⟩, fun hsome b1 b2 => ?_⟩
  · subst hs
    obtain ⟨r, hr⟩ := (fetch_error_iff s).2 hnone
    exact step_of_fetch_error s r hr
  · obtain ⟨f, hd⟩ := Option.ne_none_iff_exists'.1 hsome
    obtain ⟨args, i, rest, hm, hbytes⟩ := f.exists_makes b1 b2
    rw [hbytes]
    exact ⟨i, rest, decode_of_makes hd hm rest⟩

/-- Settles O5; eleven closed runs of the decoder. -/
theorem sampleWordsDecode : Obligations.SampleWordsDecode := by
  unfold Obligations.SampleWordsDecode
  decide +kernel

end Sys2Proof.Machine
end

section
/-! Proofs: which instruction a step fetches, and what an access list does to memory (40_step_addressing_flags.md R71 to
R73, R95; 92_eei_decisions.md D6). -/

namespace Sys2Proof.Machine

/-! ### Fetching what lies at PC -/

theorem fetchWindow_eq_map (s : State) :
    s.fetchWindow = (List.range 3).map fun k => s.readByte (s.pc + BitVec.ofNat 16 k) := by
  simp [State.fetchWindow, List.range_succ]

/-- An instruction has as many bytes as its decode length (30_encoding.md R54). -/
theorem length_encode (i : Instr) : (encode i).length = i.length :=
  (decodedBytesAreTheEncoding _ i [] (decodeOfEncodeIsTheInstruction i [] i.wellFormed)).2.1

theorem length_encode_le (i : Instr) : (encode i).length ≤ 3 := by
  have hcount : i.mode.operandCount ≤ 2 := by cases i.mode <;> decide
  rw [length_encode, Instr.length]
  omega

/-- The bytes of `i` at PC, PC + 1, …, modulo 65,536, are the first bytes of the fetch window. -/
theorem encode_prefix_fetchWindow {s : State} {i : Instr}
    (h : ∀ k, (hk : k < (encode i).length) → s.readByte (s.pc + BitVec.ofNat 16 k) = (encode i)[k]) :
    encode i <+: s.fetchWindow := by
  rw [fetchWindow_eq_map]
  refine List.prefix_iff_getElem.2 ⟨by simpa using length_encode_le i, fun k hk => ?_⟩
  simp [h k hk]

theorem fetch_of_encode_prefix {s : State} {i : Instr} (h : encode i <+: s.fetchWindow) : s.fetch = .ok i := by
  obtain ⟨rest, hrest⟩ := h
  rw [State.fetch, ← hrest, decodeOfEncodeIsTheInstruction i rest i.wellFormed]

/-! ### Replaying an access list -/

theorem Memory.replay_append (m : Memory) (as bs : List Access) : m.replay (as ++ bs) = (m.replay as).replay bs := by
  induction as generalizing m with
  | nil => rfl
  | cons access as ih =>
    cases access with
    | read addr => exact ih m
    | write addr v => exact ih _

/-- Reads leave memory as it was (20_memory.md R31). -/
theorem Memory.replay_map_read (m : Memory) (addrOf : Nat → Addr) (ks : List Nat) :
    m.replay (ks.map fun k => .read (addrOf k)) = m := by
  induction ks with
  | nil => rfl
  | cons k ks ih => exact ih

theorem Memory.replay_pointerAccesses (m : Memory) (i : Instr) (s : State) : m.replay (pointerAccesses i s) = m := by
  unfold pointerAccesses
  split <;> rfl

theorem Memory.replay_operandAccesses (m : Memory) (i : Instr) (s : State) : m.replay (operandAccesses i s) = m := by
  unfold operandAccesses
  split <;> rfl

theorem Memory.replay_vectorAccesses (m : Memory) (i : Instr) : m.replay (vectorAccesses i) = m := by
  unfold vectorAccesses
  split <;> rfl

/-- Of a step's accesses only the stores change memory; they are made past the instruction's bytes. -/
theorem Memory.replay_accesses (m : Memory) (i : Instr) (s : State) :
    m.replay (accesses i s) = m.replay (storeAccesses i (s.advancePc i.length)) := by
  simp only [accesses, storeAccesses, fetchAccesses, popAccesses, replay_append, replay_map_read,
    replay_pointerAccesses, replay_operandAccesses, replay_vectorAccesses]

/-- A replay changes no byte that the list does not write (20_memory.md R32). -/
theorem Memory.read_replay_of_notMem (m : Memory) (as : List Access) (addr : Addr) (h : addr ∉ writtenAddrs as) :
    (m.replay as).read addr.toNat = m.read addr.toNat := by
  induction as generalizing m with
  | nil => rfl
  | cons access as ih =>
    cases access with
    | read _ => exact ih m h
    | write written v =>
      obtain ⟨hne, hrest⟩ := not_or.1 (mt List.mem_cons.2 h)
      rw [replay, ih _ hrest, read_write, if_neg (mt BitVec.eq_of_toNat_eq hne)]

end Sys2Proof.Machine
end

section
/-! Proofs: the statements of 40_step_addressing_flags.md. -/

namespace Sys2Proof.Machine

/-- A step faults or has a next state; it is never refused (R96). -/
theorem step_ne_refused (s : State) (r : Refusal) : step s ≠ .refused r := by
  cases hfetch : s.fetch with
  | error e => simp [step_of_fetch_error s e hfetch]
  | ok i =>
    obtain ⟨t, ht⟩ := step_of_fetch_ok s i hfetch
    simp [ht]

/-- Settles O9: fetching fails at the bytes of R56 only, and every meaning answers a next state. -/
theorem assignedOpcodesAlwaysStep : Obligations.AssignedOpcodesAlwaysStep := by
  refine fun s => ⟨fun hop => ?_, step_ne_refused s⟩
  cases hfetch : s.fetch with
  | error e => exact absurd ((mem_unassignedOpcodes_iff _).2 ((fetch_error_iff s).1 ⟨e, hfetch⟩)) hop
  | ok i => exact step_of_fetch_ok s i hfetch

/-- Settles O10: the instruction's meaning leaves IC, and `step` then counts it. -/
theorem everyStepCountsOne : Obligations.EveryStepCountsOne := by
  intro s t hstep
  obtain ⟨i, u, -, hexec, rfl⟩ := (step_next_iff s t).1 hstep
  exact congrArg (· + 1) (exec_frame hexec).ic_same

/-- Settles O6: the fetch window starts with the bytes of `i`, so it is `i` that `step` runs. -/
theorem stepRunsTheDecodedInstruction : Obligations.StepRunsTheDecodedInstruction := by
  intro s i _ hbytes
  have hfetch : s.fetch = .ok i := fetch_of_encode_prefix (encode_prefix_fetchWindow hbytes)
  rw [step, hfetch]
  rfl

/-- Settles O21: the 8-bit addition wraps in page zero, the 16-bit one at the end of memory. -/
theorem directEffectiveAddresses : Obligations.DirectEffectiveAddresses := by
  intro s zp addr
  have hzero (index : Byte) : (zeroPage (zp + index)).toNat = (zp.toNat + index.toNat) % 256 := by
    rw [zeroPage_toNat, BitVec.toNat_add]
  have habs (index : Byte) : (addr + zeroPage index).toNat = (addr.toNat + index.toNat) % 65536 := by
    rw [BitVec.toNat_add, zeroPage_toNat]
  exact ⟨zeroPage_toNat zp, hzero s.x, hzero s.y, rfl, habs s.x, habs s.y, fun _ => rfl⟩

theorem read16ZP_toNat (s : State) (p : Byte) :
    (s.read16ZP p).toNat = (s.readByte (BitVec.ofNat 16 p.toNat)).toNat +
      256 * (s.readByte (BitVec.ofNat 16 ((p.toNat + 1) % 256))).toNat :=
  (wordsAreLittleEndian s 0 p).2

/-- Settles O22, by `read16ZP_toNat`: X is added to where the pointer lies, Y to the pointer. -/
theorem indirectEffectiveAddresses : Obligations.IndirectEffectiveAddresses := by
  refine fun s zp => ⟨?_, ?_⟩
  · rw [State.ea, read16ZP_toNat, BitVec.toNat_add, Nat.mod_add_mod]
  · rw [State.ea, BitVec.toNat_add, read16ZP_toNat, zeroPage_toNat]

/-- Settles O55: only the stores of the list change memory, and `exec_mem` says that they make the memory of the step. -/
theorem accessListRebuildsTheMemory : Obligations.AccessListRebuildsTheMemory := by
  intro s t i hfetch hstep
  obtain ⟨j, u, hj, hexec, rfl⟩ := (step_next_iff s t).1 hstep
  cases hj.symm.trans hfetch
  have hmem : u.countInstruction.mem = s.mem.replay (accesses i s) := by
    rw [Memory.replay_accesses]
    exact exec_mem hexec
  refine ⟨hmem, fun addr haddr => ?_⟩
  rw [State.readByte, hmem]
  exact Memory.read_replay_of_notMem _ _ addr haddr

end Sys2Proof.Machine
end

section
/-! Proofs: the "Encoding" line of every rule. The rows of R59 are cells of the matrix of R55, and no others are its
mnemonic's (30_encoding.md R50, R55, R59). -/

namespace Sys2Proof

/-- Each row of R59 stands in the matrix of R55 under its own mnemonic and mode; the converse of
`matrix_agrees_with_opcodes`. -/
theorem sample_of_mem_opcodesOf {m : Mnemonic} {r : Mode × Byte} (h : r ∈ opcodesOf m) :
    (dispatch r.2).map (fun f => (f.sample.mnemonic, f.sample.mode)) = some (m, r.1) := by
  revert r
  cases m <;> decide

theorem mem_opcodesOf_of_opcode {i : Instr} {op : Byte} (h : i.opcode = some op) :
    (i.mode, op) ∈ opcodesOf i.mnemonic := by
  obtain ⟨before, after, hrows, -⟩ := List.lookup_eq_some_iff.1 h
  rw [hrows]
  exact List.mem_append_right before (List.mem_cons_self ..)

/-- A row's byte decodes, with any two bytes after it, to an instruction of the row's mnemonic and mode. -/
theorem decode_of_mem_opcodesOf {m : Mnemonic} {mode : Mode} {op : Byte} (h : (mode, op) ∈ opcodesOf m)
    (b1 b2 : Byte) :
    ∃ i rest, decode [op, b1, b2] = .ok (i, rest) ∧ i.mnemonic = m ∧ i.mode = mode ∧
      op :: (i.operand.bytes ++ rest) = [op, b1, b2] := by
  have hsample := sample_of_mem_opcodesOf h
  obtain ⟨f, hd, -⟩ := Option.map_eq_some_iff.1 hsample
  obtain ⟨args, i, rest, hm, hbytes⟩ := f.exists_makes b1 b2
  obtain ⟨hop, rfl⟩ := opcode_of_makes hd hm
  have hi : (i.mnemonic, i.mode) = (m, mode) :=
    Option.some.inj ((sample_of_mem_opcodesOf (mem_opcodesOf_of_opcode hop)).symm.trans hsample)
  obtain ⟨hmnemonic, hmode⟩ := Prod.mk.inj hi
  rw [hbytes]
  exact ⟨i, rest, decode_of_makes hd hm rest, hmnemonic, hmode, rfl⟩

/-- Every mnemonic is encoded as its line of R59 says. -/
theorem encodedAs_opcodesOf (m : Mnemonic) : Machine.EncodedAs m (opcodesOf m) := by
  refine ⟨fun r hr b1 b2 => decode_of_mem_opcodesOf hr b1 b2, ?_⟩
  rintro bs i rest h rfl
  obtain ⟨op, f, args, hd, hm, rfl⟩ := makes_of_decode h
  exact ⟨op, args ++ rest, rfl, mem_opcodesOf_of_opcode (opcode_of_makes hd hm).1⟩

end Sys2Proof
end

section
/-! Proofs: the loads and stores in terms of the shared operations, whatever the mode (41_load_store.md R100 to
R105). -/

namespace Sys2Proof.Machine

/-! ### Loads -/

theorem nzFrom_setNZ (s : State) (v : Byte) : NZFrom v (s.setNZ v) := by
  simp [NZFrom, flag_setNZ, sign, isZero_iff]

/-! The mnemonic leaves the constructors of its own modes; in each of them `exec` computes to the shared load. -/

theorem exec_of_lda {i : Instr} (s : State) (h : i.mnemonic = .lda) :
    ∃ m, s.operandByte i.operand = some m ∧ exec i s = .next (s.loadA m) := by
  cases i <;> cases h <;> exact ⟨_, rfl, rfl⟩

theorem exec_of_ldx {i : Instr} (s : State) (h : i.mnemonic = .ldx) :
    ∃ m, s.operandByte i.operand = some m ∧ exec i s = .next (s.loadX m) := by
  cases i <;> cases h <;> exact ⟨_, rfl, rfl⟩

theorem exec_of_ldy {i : Instr} (s : State) (h : i.mnemonic = .ldy) :
    ∃ m, s.operandByte i.operand = some m ∧ exec i s = .next (s.loadY m) := by
  cases i <;> cases h <;> exact ⟨_, rfl, rfl⟩

/-! ### Stores -/

theorem operandAccesses_of_not_readsOperand {i : Instr} (s : State) (h : readsOperand i.mnemonic = false) :
    operandAccesses i s = [] := by
  simp [operandAccesses, h]

theorem writeBackAccesses_of_setterResult {i : Instr} {s : State} {m : MemOperand} {v : Byte} (hm : i.operand = .mem m)
    (hv : setterResult i.mnemonic s (s.load m) = some v) : writeBackAccesses i s = [.write (s.ea m) v] := by
  simp [writeBackAccesses, hm, hv]

/-- `i` is a store of the register `r`. -/
def IsStoreOf (i : Instr) (r : Reg) : Prop :=
  i.mnemonic = .sta ∧ r = .a ∨ i.mnemonic = .stx ∧ r = .x ∨ i.mnemonic = .sty ∧ r = .y

theorem exec_of_isStoreOf {i : Instr} {r : Reg} (s : State) (h : IsStoreOf i r) :
    ∃ m, i.operand = .mem m ∧ exec i s = .next (s.writeByte (s.ea m) (s.reg r)) := by
  obtain ⟨hi, rfl⟩ | ⟨hi, rfl⟩ | ⟨hi, rfl⟩ := h
  all_goals cases i <;> cases hi <;> exact ⟨_, rfl, rfl⟩

theorem readsOperand_of_isStoreOf {i : Instr} {r : Reg} (h : IsStoreOf i r) : readsOperand i.mnemonic = false := by
  obtain ⟨hi, -⟩ | ⟨hi, -⟩ | ⟨hi, -⟩ := h
  all_goals rw [hi]; rfl

theorem setterResult_of_isStoreOf {i : Instr} {r : Reg} (s : State) (operand : Byte) (h : IsStoreOf i r) :
    setterResult i.mnemonic s operand = some (s.reg r) := by
  obtain ⟨hi, rfl⟩ | ⟨hi, rfl⟩ | ⟨hi, rfl⟩ := h
  all_goals rw [hi]; rfl

end Sys2Proof.Machine
end

section
/-! Proofs: the statements of 41_load_store.md. -/

namespace Sys2Proof.Machine

/-- Settles O23: in every mode a load is the shared load of the operand byte into its register. -/
theorem loadsSetTheirRegister : Obligations.LoadsSetTheirRegister := by
  refine ⟨encodedAs_opcodesOf .lda, encodedAs_opcodesOf .ldx, encodedAs_opcodesOf .ldy,
    fun i s => ⟨fun h => ?_, fun h => ?_, fun h => ?_⟩⟩
  · obtain ⟨m, hm, hexec⟩ := exec_of_lda s h
    exact ⟨m, s.loadA m, hm, hexec, rfl, nzFrom_setNZ _ m, rfl, loadA_frame s m⟩
  · obtain ⟨m, hm, hexec⟩ := exec_of_ldx s h
    exact ⟨m, s.loadX m, hm, hexec, rfl, nzFrom_setNZ _ m, rfl, loadX_frame s m⟩
  · obtain ⟨m, hm, hexec⟩ := exec_of_ldy s h
    exact ⟨m, s.loadY m, hm, hexec, rfl, nzFrom_setNZ _ m, rfl, loadY_frame s m⟩

/-- Settles O24: in every mode a store is one write at its operand's address; R87 lists no store as a reader of M. -/
theorem storesWriteTheEffectiveAddress : Obligations.StoresWriteTheEffectiveAddress := by
  refine ⟨encodedAs_opcodesOf .sta, encodedAs_opcodesOf .stx, encodedAs_opcodesOf .sty, fun i s r h => ?_⟩
  obtain ⟨m, hm, hexec⟩ := exec_of_isStoreOf s h
  refine ⟨m, s.writeByte (s.ea m) (s.reg r), hm, hexec, readByte_writeByte_self s _ _, rfl,
    writeByte_frame s _ _, ?_, ?_⟩
  · exact operandAccesses_of_not_readsOperand s (readsOperand_of_isStoreOf h)
  · exact writeBackAccesses_of_setterResult hm (setterResult_of_isStoreOf s _ h)

end Sys2Proof.Machine
end

section
/-! Proofs: the statements of 42_transfer_stack.md. -/

namespace Sys2Proof.Machine

/-- Settles O25: each of the five is the shared load of the destination, with the source as the byte loaded. -/
theorem transfersCopyAndSetNZ : Obligations.TransfersCopyAndSetNZ := by
  refine ⟨encodedAs_opcodesOf .tax, encodedAs_opcodesOf .tay, encodedAs_opcodesOf .tsx, encodedAs_opcodesOf .txa,
    encodedAs_opcodesOf .tya, fun i s source dest h => ?_⟩
  simp only [List.mem_cons, Prod.mk.injEq, List.not_mem_nil, or_false] at h
  obtain ⟨rfl, rfl, rfl⟩ | ⟨rfl, rfl, rfl⟩ | ⟨rfl, rfl, rfl⟩ | ⟨rfl, rfl, rfl⟩ | ⟨rfl, rfl, rfl⟩ := h
  · exact ⟨s.loadX s.a, rfl, rfl, nzFrom_setNZ _ _, rfl, loadX_frame s s.a⟩
  · exact ⟨s.loadY s.a, rfl, rfl, nzFrom_setNZ _ _, rfl, loadY_frame s s.a⟩
  · exact ⟨s.loadX s.sp, rfl, rfl, nzFrom_setNZ _ _, rfl, loadX_frame s s.sp⟩
  · exact ⟨s.loadA s.x, rfl, rfl, nzFrom_setNZ _ _, rfl, loadA_frame s s.x⟩
  · exact ⟨s.loadA s.y, rfl, rfl, nzFrom_setNZ _ _, rfl, loadA_frame s s.y⟩

/-- Settles O27: both are the shared push, of A and of the status copy with bit 4 set. -/
theorem phaAndPhpPush : Obligations.PhaAndPhpPush := by
  refine ⟨encodedAs_opcodesOf .pha, encodedAs_opcodesOf .php, fun s i v h => ?_⟩
  have hexec : exec i s = .next (s.push v) := by obtain ⟨rfl, rfl⟩ | ⟨rfl, rfl⟩ := h <;> rfl
  exact ⟨s.push v, hexec, readByte_push_self s v, push_sp s v, push_pc s v, push_frame s v⟩

/-- Settles O28: the pop moves SP, and the shared load of A does the rest. -/
theorem plaPopsIntoA : Obligations.PlaPopsIntoA := by
  refine ⟨encodedAs_opcodesOf .pla, fun s => ?_⟩
  have hframe := ((popped_frame s).trans (loadA_frame s.popped s.popValue)).mono
    (regs' := [.a, .sp]) (flags' := [.n, .z]) (by decide) (by decide)
  exact ⟨s.popped.loadA s.popValue, rfl, rfl, rfl, nzFrom_setNZ _ _, rfl, hframe⟩

/-- Settles O29: the loaded copy is the popped byte but for bit 4. -/
theorem plpLoadsStatusWithoutB : Obligations.PlpLoadsStatusWithoutB := by
  refine ⟨encodedAs_opcodesOf .plp, fun s => ?_⟩
  have hflag (f : Flag) : (s.popped.setSr (loadedStatus s.popValue)).flag f =
      if f = .b then false else f.get s.popValue := Flag.get_loadedStatus f s.popValue
  exact ⟨s.popped.setSr (loadedStatus s.popValue), rfl, rfl, hflag .b, fun f hf => (hflag f).trans (if_neg hf), rfl, rfl,
    (popped_frame s).trans (setSr_frame _ _)⟩

/-- Settles O30: the pop takes back the pushed copy, and loading that copy gives SR back. -/
theorem phpThenPlpRestoresStatus : Obligations.PhpThenPlpRestoresStatus := by
  intro s hb
  refine ⟨s.push (pushedStatus s.sr), _, rfl, rfl, ?_, ?_⟩
  · rw [setSr_sr, popValue_push, loadedStatus_pushedStatus s.sr hb]
  · rw [setSr_sp, popped_push, writeByte_sp]

/-- Settles O26: TXS is the one field update of SP, with no `setNZ` after it. -/
theorem txsCopiesXToSp : Obligations.TxsCopiesXToSp :=
  ⟨encodedAs_opcodesOf .txs, fun s => ⟨s.setSp s.x, rfl, rfl, rfl, setSp_frame s s.x⟩⟩

end Sys2Proof.Machine
end

section
/-! Proofs: the logical instructions and the bit test in terms of the shared operations, whatever the mode
(43_logical_bit.md R120 to R123). -/

namespace Sys2Proof.Machine

/-! As for the loads, the mnemonic leaves the constructors of its own modes, and in each of them `exec` computes to the
shared operation. -/

theorem exec_of_and {i : Instr} (s : State) (h : i.mnemonic = .and) :
    ∃ m, s.operandByte i.operand = some m ∧ exec i s = .next (s.loadA (s.a &&& m)) := by
  cases i <;> cases h <;> exact ⟨_, rfl, rfl⟩

theorem exec_of_ora {i : Instr} (s : State) (h : i.mnemonic = .ora) :
    ∃ m, s.operandByte i.operand = some m ∧ exec i s = .next (s.loadA (s.a ||| m)) := by
  cases i <;> cases h <;> exact ⟨_, rfl, rfl⟩

theorem exec_of_eor {i : Instr} (s : State) (h : i.mnemonic = .eor) :
    ∃ m, s.operandByte i.operand = some m ∧ exec i s = .next (s.loadA (s.a ^^^ m)) := by
  cases i <;> cases h <;> exact ⟨_, rfl, rfl⟩

theorem exec_of_bit {i : Instr} (s : State) (h : i.mnemonic = .bit) :
    ∃ m, s.operandByte i.operand = some m ∧ exec i s = .next (s.bitTest m) := by
  cases i <;> cases h <;> exact ⟨_, rfl, rfl⟩

/-- `i` combines A with its operand by `op` on each bit. -/
def IsLogicalBy (i : Instr) (op : Bool → Bool → Bool) : Prop :=
  i.mnemonic = .and ∧ op = and ∨ i.mnemonic = .ora ∧ op = or ∨ i.mnemonic = .eor ∧ op = xor

/-- A logical instruction is the shared load of A, of the byte that `op` makes bit by bit of A and M. -/
theorem exec_of_isLogicalBy {i : Instr} {op : Bool → Bool → Bool} (s : State) (h : IsLogicalBy i op) :
    ∃ m v, s.operandByte i.operand = some m ∧ exec i s = .next (s.loadA v) ∧
      ∀ k, v.getLsbD k = op (s.a.getLsbD k) (m.getLsbD k) := by
  obtain ⟨hi, rfl⟩ | ⟨hi, rfl⟩ | ⟨hi, rfl⟩ := h
  · obtain ⟨m, hm, hexec⟩ := exec_of_and s hi
    exact ⟨m, _, hm, hexec, fun _ => BitVec.getLsbD_and⟩
  · obtain ⟨m, hm, hexec⟩ := exec_of_ora s hi
    exact ⟨m, _, hm, hexec, fun _ => BitVec.getLsbD_or⟩
  · obtain ⟨m, hm, hexec⟩ := exec_of_eor s hi
    exact ⟨m, _, hm, hexec, fun _ => BitVec.getLsbD_xor⟩

theorem flag_bitTest (s : State) (m : Byte) (g : Flag) :
    (s.bitTest m).flag g =
      if g = .v then m.getLsbD 6 else if g = .n then m.getLsbD 7
      else if g = .z then isZero (s.a &&& m) else s.flag g := by
  obtain ⟨-, -, -, -, -, -, -, hflag⟩ := bitTest_spec s m
  exact hflag g

end Sys2Proof.Machine
end

section
/-! Proofs: the statements of 43_logical_bit.md. -/

namespace Sys2Proof.Machine

/-- Settles O31: in every mode the three are the shared load of A, of the byte combined bit by bit. -/
theorem logicalOperationsOnA : Obligations.LogicalOperationsOnA := by
  refine ⟨encodedAs_opcodesOf .and, encodedAs_opcodesOf .ora, encodedAs_opcodesOf .eor, fun i s op h => ?_⟩
  obtain ⟨m, v, hm, hexec, hbits⟩ := exec_of_isLogicalBy s h
  exact ⟨m, s.loadA v, hm, hexec, fun k _ => hbits k, nzFrom_setNZ _ v, rfl, loadA_frame s v⟩

/-- Settles O32: in both modes BIT is the shared bit test, which writes flags and nothing else. -/
theorem bitTestsWithoutChangingA : Obligations.BitTestsWithoutChangingA := by
  refine ⟨encodedAs_opcodesOf .bit, fun i s h => ?_⟩
  obtain ⟨m, hm, hexec⟩ := exec_of_bit s h
  have hz : (s.bitTest m).flag .z = true ↔ s.a &&& m = 0 := by rw [flag_bitTest]; exact isZero_iff _
  exact ⟨m, s.bitTest m, hm, hexec, hz, flag_bitTest s m .n, flag_bitTest s m .v, rfl, bitTest_frame s m⟩

end Sys2Proof.Machine
end

section
/-! Proofs: ADC, SBC and the compares in terms of the shared operations, whatever the mode (44_arithmetic_compare.md
R130 to R134). -/

namespace Sys2Proof.Machine

theorem exec_of_adc {i : Instr} (s : State) (h : i.mnemonic = .adc) :
    ∃ m, s.operandByte i.operand = some m ∧ exec i s = .next (s.adc m) := by
  cases i <;> cases h <;> exact ⟨_, rfl, rfl⟩

theorem exec_of_sbc {i : Instr} (s : State) (h : i.mnemonic = .sbc) :
    ∃ m, s.operandByte i.operand = some m ∧ exec i s = .next (s.sbc m) := by
  cases i <;> cases h <;> exact ⟨_, rfl, rfl⟩

/-- `i` compares the register `r`. -/
def IsCompareOf (i : Instr) (r : Reg) : Prop :=
  i.mnemonic = .cmp ∧ r = .a ∨ i.mnemonic = .cpx ∧ r = .x ∨ i.mnemonic = .cpy ∧ r = .y

theorem exec_of_isCompareOf {i : Instr} {r : Reg} (s : State) (h : IsCompareOf i r) :
    ∃ m, s.operandByte i.operand = some m ∧ exec i s = .next (s.compare (s.reg r) m) := by
  obtain ⟨hi, rfl⟩ | ⟨hi, rfl⟩ | ⟨hi, rfl⟩ := h
  all_goals cases i <;> cases hi <;> exact ⟨_, rfl, rfl⟩

theorem flag_c_adc (s : State) (m : Byte) : (s.adc m).flag .c = adcCarry s.a m (s.flag .c) := by
  obtain ⟨-, -, -, -, -, -, -, hflag⟩ := adc_spec s m
  exact hflag .c

theorem flag_v_adc (s : State) (m : Byte) : (s.adc m).flag .v = adcOverflow s.a m (s.adc m).a := by
  obtain ⟨-, -, -, -, -, -, -, hflag⟩ := adc_spec s m
  exact hflag .v

theorem flag_c_sbc (s : State) (m : Byte) : (s.sbc m).flag .c = sbcCarry s.a m (s.flag .c) := by
  obtain ⟨-, -, -, -, -, -, -, hflag⟩ := sbc_spec s m
  exact hflag .c

theorem flag_v_sbc (s : State) (m : Byte) : (s.sbc m).flag .v = sbcOverflow s.a m (s.sbc m).a := by
  obtain ⟨-, -, -, -, -, -, -, hflag⟩ := sbc_spec s m
  exact hflag .v

theorem flag_c_compare (s : State) (r m : Byte) : (s.compare r m).flag .c = compareCarry r m := by
  obtain ⟨-, -, -, -, -, -, -, hflag⟩ := compare_spec s r m
  exact hflag .c

end Sys2Proof.Machine
end

section
/-! Proofs: the sums, differences and comparisons of bytes as numbers (44_arithmetic_compare.md R130 to R135). A
difference is the sum with the complemented operand, so what is said of ADC carries over to SBC. -/

namespace Sys2Proof.Machine

/-! ### Sums -/

theorem toNat_adcResult (a m : Byte) (c : Bool) :
    (adcResult a m c).toNat = (a.toNat + m.toNat + c.toNat) % 256 := BitVec.toNat_ofNat _ _

theorem adcCarry_iff (a m : Byte) (c : Bool) : adcCarry a m c = true ↔ 0xFF < a.toNat + m.toNat + c.toNat :=
  decide_eq_true_iff

theorem adcOverflow_iff (before m after : Byte) :
    adcOverflow before m after = true ↔
      before.getLsbD 7 = m.getLsbD 7 ∧ after.getLsbD 7 ≠ before.getLsbD 7 := by
  simp [adcOverflow, sign]

/-! ### Differences -/

/-- The byte of an unbounded integer, "modulo 256" whatever its sign. -/
theorem toNat_byte_ofInt (z : Int) : ((BitVec.ofInt 8 z).toNat : Int) = z % 256 := by
  rw [BitVec.toNat_ofInt]
  exact Int.toNat_of_nonneg (Int.emod_nonneg z (by decide))

theorem toNat_complement (m : Byte) : (m ^^^ 0xFF).toNat = 255 - m.toNat := by
  have hones : (0xFF : Byte) = BitVec.allOnes 8 := rfl
  rw [hones, BitVec.xor_allOnes, BitVec.toNat_not]

theorem sign_complement (m : Byte) : sign (m ^^^ 0xFF) = !sign m := by simp [sign]

/-- `A - M - (1 - C)` is `A + (255 - M) + C` less 256, the key to every SBC fact (R131). -/
theorem sbcRaw_eq (a m : Byte) (c : Bool) : sbcRaw a m c = adcRaw a (m ^^^ 0xFF) c - 256 := by
  simp only [sbcRaw, adcRaw, toNat_complement]
  omega

theorem toNat_sbcResult (a m : Byte) (c : Bool) :
    ((sbcResult a m c).toNat : Int) = ((a.toNat : Int) - m.toNat - (1 - c.toNat)) % 256 := toNat_byte_ofInt _

theorem sbcCarry_iff (a m : Byte) (c : Bool) :
    sbcCarry a m c = true ↔ 0 ≤ (a.toNat : Int) - m.toNat - (1 - c.toNat) := decide_eq_true_iff

theorem sbcOverflow_iff (before m after : Byte) :
    sbcOverflow before m after = true ↔
      before.getLsbD 7 ≠ m.getLsbD 7 ∧ after.getLsbD 7 ≠ before.getLsbD 7 := by
  simp [sbcOverflow, sign]

theorem sbcResult_eq_adcResult (a m : Byte) (c : Bool) : sbcResult a m c = adcResult a (m ^^^ 0xFF) c := by
  apply BitVec.eq_of_toNat_eq
  simp only [sbcResult, adcResult, sbcRaw_eq, BitVec.toNat_ofInt, BitVec.toNat_ofNat]
  omega

theorem sbcCarry_eq_adcCarry (a m : Byte) (c : Bool) : sbcCarry a m c = adcCarry a (m ^^^ 0xFF) c := by
  simp only [sbcCarry, adcCarry, sbcRaw_eq, decide_eq_decide]
  omega

theorem sbcOverflow_eq_adcOverflow (before m after : Byte) :
    sbcOverflow before m after = adcOverflow before (m ^^^ 0xFF) after := by
  rw [sbcOverflow, adcOverflow, sign_complement]
  cases sign before <;> cases sign m <;> rfl

/-- The equal formulation of R131: SBC is ADC of the complemented operand. -/
theorem sbc_eq_adc (s : State) (m : Byte) : s.sbc m = s.adc (m ^^^ 0xFF) := by
  simp only [State.sbc, State.adc, sbcResult_eq_adcResult, sbcCarry_eq_adcCarry, sbcOverflow_eq_adcOverflow]

/-! ### Signed sums -/

theorem toInt_byte_range (v : Byte) : -128 ≤ v.toInt ∧ v.toInt ≤ 127 :=
  ⟨BitVec.le_toInt v, Int.le_of_lt_add_one BitVec.toInt_lt⟩

theorem sign_eq_decide_neg (v : Byte) : sign v = decide (v.toInt < 0) :=
  (BitVec.msb_eq_getLsbD_last v).symm.trans BitVec.msb_eq_toInt

theorem toInt_complement (m : Byte) : (m ^^^ 0xFF).toInt = -m.toInt - 1 := by
  simp only [BitVec.toInt_eq_toNat_cond, toNat_complement]
  omega

theorem toInt_adcResult (a m : Byte) (c : Bool) :
    (adcResult a m c).toInt = (a.toInt + m.toInt + c.toNat).bmod 256 := by
  simp only [adcResult, adcRaw, BitVec.toInt_eq_toNat_cond, BitVec.toNat_ofNat, Int.bmod_def]
  omega

/-- R135 (a) for sums: a result of the wrong sign is one that was wrapped into -128..127. -/
theorem adcOverflow_adcResult_iff (a m : Byte) (c : Bool) :
    adcOverflow a m (adcResult a m c) = true ↔
      ¬ (-128 ≤ a.toInt + m.toInt + c.toNat ∧ a.toInt + m.toInt + c.toNat ≤ 127) := by
  have ha := toInt_byte_range a
  have hm := toInt_byte_range m
  have hc := Bool.toNat_le c
  simp only [adcOverflow, sign_eq_decide_neg, toInt_adcResult, Int.bmod_def, Bool.and_eq_true, beq_iff_eq, bne_iff_ne,
    ne_eq, decide_eq_decide]
  omega

theorem flag_v_adc_iff (s : State) (m : Byte) :
    (s.adc m).flag .v = true ↔ ¬ (-128 ≤ s.a.toInt + m.toInt + (s.flag .c).toNat ∧
      s.a.toInt + m.toInt + (s.flag .c).toNat ≤ 127) := by
  rw [flag_v_adc]
  exact adcOverflow_adcResult_iff s.a m (s.flag .c)

/-- R135 (a) for differences: that of the sum with the complement, which is `-M - 1` as a signed byte. -/
theorem flag_v_sbc_iff (s : State) (m : Byte) :
    (s.sbc m).flag .v = true ↔ ¬ (-128 ≤ s.a.toInt - m.toInt - (1 - (s.flag .c).toNat) ∧
      s.a.toInt - m.toInt - (1 - (s.flag .c).toNat) ≤ 127) := by
  have hdiff : s.a.toInt - m.toInt - (1 - (s.flag .c).toNat) =
      s.a.toInt + (m ^^^ 0xFF).toInt + (s.flag .c).toNat := by
    rw [toInt_complement]
    omega
  rw [sbc_eq_adc, flag_v_adc_iff, hdiff]

/-! ### Comparisons -/

theorem toNat_compareResult (r m : Byte) :
    ((compareResult r m).toNat : Int) = ((r.toNat : Int) - m.toNat) % 256 := toNat_byte_ofInt _

theorem compareCarry_iff (r m : Byte) : compareCarry r m = true ↔ m.toNat ≤ r.toNat := decide_eq_true_iff

end Sys2Proof.Machine
end

section
/-! Proofs: the statements of 44_arithmetic_compare.md. -/

namespace Sys2Proof.Machine

/-- Settles O33: in every mode ADC is the shared addition, whose flags do not read D. -/
theorem adcAddsWithCarry : Obligations.AdcAddsWithCarry := by
  refine ⟨encodedAs_opcodesOf .adc, fun i s h => ?_⟩
  obtain ⟨m, hm, hexec⟩ := exec_of_adc s h
  have hc : (s.adc m).flag .c = true ↔ 0xFF < s.a.toNat + m.toNat + (s.flag .c).toNat := by
    rw [flag_c_adc, adcCarry_iff]
  have hv : (s.adc m).flag .v = true ↔ s.a.getLsbD 7 = m.getLsbD 7 ∧ (s.adc m).a.getLsbD 7 ≠ s.a.getLsbD 7 := by
    rw [flag_v_adc, adcOverflow_iff]
  exact ⟨m, s.adc m, hm, hexec, toNat_adcResult s.a m _, hc, hv, nzFrom_setNZ _ _, rfl, adc_frame s m⟩

/-- Settles O34: in every mode SBC is the shared subtraction, which is the shared addition of the complement. -/
theorem sbcSubtractsWithBorrow : Obligations.SbcSubtractsWithBorrow := by
  refine ⟨encodedAs_opcodesOf .sbc, fun i s h => ?_, fun s m => congrArg _ (sbc_eq_adc s m)⟩
  obtain ⟨m, hm, hexec⟩ := exec_of_sbc s h
  have hc : (s.sbc m).flag .c = true ↔ 0 ≤ (s.a.toNat : Int) - m.toNat - (1 - (s.flag .c).toNat) := by
    rw [flag_c_sbc, sbcCarry_iff]
  have hv : (s.sbc m).flag .v = true ↔ s.a.getLsbD 7 ≠ m.getLsbD 7 ∧ (s.sbc m).a.getLsbD 7 ≠ s.a.getLsbD 7 := by
    rw [flag_v_sbc, sbcOverflow_iff]
  exact ⟨m, s.sbc m, hm, hexec, toNat_sbcResult s.a m _, hc, hv, nzFrom_setNZ _ _, rfl, sbc_frame s m⟩

/-- Settles O35: the signed range is a fact about the shared addition; SBC takes it over through the complement. -/
theorem overflowMeansSignedOutOfRange : Obligations.OverflowMeansSignedOutOfRange := by
  refine fun i s => ⟨fun h => ?_, fun h => ?_⟩
  · obtain ⟨m, hm, hexec⟩ := exec_of_adc s h
    exact ⟨m, s.adc m, hm, hexec, flag_v_adc_iff s m⟩
  · obtain ⟨m, hm, hexec⟩ := exec_of_sbc s h
    exact ⟨m, s.sbc m, hm, hexec, flag_v_sbc_iff s m⟩

/-- Settles O36: in every mode the three are the shared compare, which writes flags and nothing else. -/
theorem comparesSetFlagsOnly : Obligations.ComparesSetFlagsOnly := by
  refine ⟨encodedAs_opcodesOf .cmp, encodedAs_opcodesOf .cpx, encodedAs_opcodesOf .cpy, fun i s r h => ?_⟩
  obtain ⟨m, hm, hexec⟩ := exec_of_isCompareOf s h
  have hc : (s.compare (s.reg r) m).flag .c = true ↔ m.toNat ≤ (s.reg r).toNat := by
    rw [flag_c_compare, compareCarry_iff]
  exact ⟨m, s.compare (s.reg r) m, hm, hexec, hc, ⟨_, toNat_compareResult _ m, nzFrom_setNZ _ _⟩, rfl,
    compare_frame s _ m⟩

end Sys2Proof.Machine
end

section
/-! Proofs: the increments, decrements, shifts and rotates in terms of the shared operations, whatever the mode
(45_incdec_shift.md R140 to R149). -/

namespace Sys2Proof.Machine

/-! ### Read-modify-write -/

theorem readByte_writeBack_self (s : State) (ea : Addr) (v : Byte) : (s.writeBack ea v).readByte ea = v :=
  readByte_writeByte_self (s.setNZ v) ea v

/-- The write to memory comes after `setNZ` and touches no flag. -/
theorem nzFrom_writeBack (s : State) (ea : Addr) (v : Byte) : NZFrom v (s.writeBack ea v) := nzFrom_setNZ s v

theorem readByte_modify_ea (s : State) (m : MemOperand) (f : Byte → Byte) :
    (s.modify m f).readByte (s.ea m) = f (s.load m) := readByte_writeBack_self s _ _

theorem readByte_shiftMem_ea (s : State) (m : MemOperand) (f : Byte → Byte) (carry : Byte → Bool) :
    (s.shiftMem m f carry).readByte (s.ea m) = f (s.load m) := readByte_writeBack_self _ _ _

theorem operandAccesses_of_readsOperand {i : Instr} {m : MemOperand} (s : State) (hm : i.operand = .mem m)
    (h : readsOperand i.mnemonic = true) : operandAccesses i s = [.read (s.ea m)] := by
  simp [operandAccesses, hm, h]

/-- An accumulator operand is neither read from memory nor written back to it. -/
theorem accesses_of_accumulator {i : Instr} (s : State) (h : i.operand = .accumulator) :
    operandAccesses i s = [] ∧ writeBackAccesses i s = [] := by
  simp [operandAccesses, writeBackAccesses, h]

theorem operand_of_mode_acc {i : Instr} (h : i.mode = .acc) : i.operand = .accumulator := by
  rw [Instr.mode] at h
  cases ho : i.operand with
  | accumulator => rfl
  | mem m => rw [ho] at h; cases m <;> cases h
  | implied | immediate | indirect | relative => rw [ho] at h; cases h

/-! ### Increments and decrements

An increment adds 1 modulo 256, a decrement 255. -/

theorem toNat_incResult (v : Byte) : (incResult v).toNat = (v.toNat + 1) % 256 := BitVec.toNat_add v 1

theorem toNat_decResult (v : Byte) : (decResult v).toNat = (v.toNat + 255) % 256 := by
  rw [decResult, BitVec.toNat_sub, Nat.add_comm]
  rfl

/-- `i` adds `d` to the byte at its effective address. -/
def IsModifyBy (i : Instr) (d : Nat) : Prop :=
  i.mnemonic = .inc ∧ d = 1 ∨ i.mnemonic = .dec ∧ d = 255

/-- The mnemonic leaves the constructors of its own modes; in each of them `exec` computes to `State.modify`. -/
theorem exec_of_isModifyBy {i : Instr} {d : Nat} (s : State) (h : IsModifyBy i d) :
    ∃ m f, i.operand = .mem m ∧ exec i s = .next (s.modify m f) ∧ readsOperand i.mnemonic = true ∧
      setterResult i.mnemonic s (s.load m) = some (f (s.load m)) ∧ ∀ v, (f v).toNat = (v.toNat + d) % 256 := by
  obtain ⟨hi, rfl⟩ | ⟨hi, rfl⟩ := h
  · cases i <;> cases hi <;> exact ⟨_, incResult, rfl, rfl, rfl, rfl, toNat_incResult⟩
  · cases i <;> cases hi <;> exact ⟨_, decResult, rfl, rfl, rfl, rfl, toNat_decResult⟩

/-! ### Shifts and rotates as nine-bit numbers -/

theorem toNat_leftCarry (m : Byte) : (leftCarry m).toNat = m.toNat / 128 := by
  have := m.isLt
  rw [leftCarry, BitVec.getLsbD, Nat.toNat_testBit]
  omega

theorem toNat_rightCarry (m : Byte) : (rightCarry m).toNat = m.toNat % 2 := by
  rw [rightCarry, BitVec.getLsbD, Nat.toNat_testBit, Nat.pow_zero, Nat.div_one]

theorem toNat_carryByte (c : Bool) : (carryByte c).toNat = c.toNat := by cases c <;> rfl

theorem toNat_aslResult (m : Byte) : (aslResult m).toNat = 2 * m.toNat % 256 := by
  rw [aslResult, BitVec.toNat_shiftLeft, Nat.shiftLeft_eq, Nat.mul_comm]

theorem toNat_lsrResult (m : Byte) : (lsrResult m).toNat = m.toNat / 2 := by
  rw [lsrResult, BitVec.toNat_ushiftRight, Nat.shiftRight_eq_div_pow, Nat.pow_one]

/-- The old carry enters at bit 0, which the shift left clear, so that setting it adds it. -/
theorem toNat_rolResult (m : Byte) (c : Bool) : (rolResult m c).toNat = 2 * m.toNat % 256 + c.toNat := by
  have heven : (aslResult m).toNat = 2 ^ 1 * (m.toNat % 128) := by rw [toNat_aslResult]; omega
  calc (rolResult m c).toNat
    _ = (aslResult m).toNat ||| (carryByte c).toNat := BitVec.toNat_or _ _
    _ = 2 ^ 1 * (m.toNat % 128) + c.toNat := by
      rw [heven, toNat_carryByte, Nat.two_pow_add_eq_or_of_lt c.toNat_lt]
    _ = 2 * m.toNat % 256 + c.toNat := by omega

/-- The old carry enters at bit 7, which the shift right left clear, so that setting it adds it. -/
theorem toNat_rorResult (m : Byte) (c : Bool) : (rorResult m c).toNat = 128 * c.toNat + m.toNat / 2 := by
  have htop : (carryByte c <<< 7).toNat = 2 ^ 7 * c.toNat := by cases c <;> rfl
  have hlow : m.toNat / 2 < 2 ^ 7 := by omega
  calc (rorResult m c).toNat
    _ = (carryByte c <<< 7).toNat ||| (lsrResult m).toNat := BitVec.toNat_or _ _
    _ = 128 * c.toNat + m.toNat / 2 := by
      rw [htop, toNat_lsrResult, ← Nat.two_pow_add_eq_or_of_lt hlow]

/-! ### Shifts and rotates -/

/-- The shifts and rotates. -/
def IsShift (n : Mnemonic) : Prop := n ∈ [Mnemonic.asl, .lsr, .rol, .ror]

theorem isShift_iff (n : Mnemonic) : IsShift n ↔ n = .asl ∨ n = .lsr ∨ n = .rol ∨ n = .ror := by
  simp [IsShift]

/-- The result of a shift or rotate of `m` with the old carry (R146 to R149); of no interest for other mnemonics. -/
def shiftResult (n : Mnemonic) (oldC : Bool) (m : Byte) : Byte :=
  match n with
  | .asl => aslResult m
  | .lsr => lsrResult m
  | .rol => rolResult m oldC
  | _ => rorResult m oldC

/-- The bit a shift or rotate moves into C (R146 to R149); of no interest for other mnemonics. -/
def shiftCarry : Mnemonic → Byte → Bool
  | .asl | .rol => leftCarry
  | _ => rightCarry

/-- Each moves the nine bits of operand and carry as its rule says. -/
theorem shifts_shiftResult {n : Mnemonic} (h : IsShift n) (m : Byte) (oldC : Bool) :
    Shifts n m oldC (shiftResult n oldC m) (shiftCarry n m) := by
  obtain rfl | rfl | rfl | rfl := (isShift_iff n).1 h
  · refine .inl ⟨rfl, ?_⟩
    simp only [shiftResult, shiftCarry, toNat_aslResult, toNat_leftCarry]
    omega
  · refine .inr (.inl ⟨rfl, ?_⟩)
    simp only [shiftResult, shiftCarry, toNat_lsrResult, toNat_rightCarry]
    omega
  · refine .inr (.inr (.inl ⟨rfl, ?_⟩))
    simp only [shiftResult, shiftCarry, toNat_rolResult, toNat_leftCarry]
    omega
  · refine .inr (.inr (.inr ⟨rfl, ?_⟩))
    simp only [shiftResult, shiftCarry, toNat_rorResult, toNat_rightCarry]
    omega

theorem readsOperand_of_isShift {n : Mnemonic} (h : IsShift n) : readsOperand n = true := by
  obtain rfl | rfl | rfl | rfl := (isShift_iff n).1 h
  all_goals rfl

theorem setterResult_of_isShift {n : Mnemonic} (s : State) (operand : Byte) (h : IsShift n) :
    setterResult n s operand = some (shiftResult n (s.flag .c) operand) := by
  obtain rfl | rfl | rfl | rfl := (isShift_iff n).1 h
  all_goals rfl

/-- M of a shift or rotate is A or a byte of memory (R146 to R149). -/
theorem mode_acc_or_operand_mem_of_isShift {i : Instr} (h : IsShift i.mnemonic) :
    i.mode = .acc ∨ ∃ m, i.operand = .mem m := by
  cases i
  case aslAcc | lsrAcc | rolAcc | rorAcc => exact .inl rfl
  case aslZp | aslZpx | aslAbs | aslAbx | lsrZp | lsrZpx | lsrAbs | lsrAbx
    | rolZp | rolZpx | rolAbs | rolAbx | rorZp | rorZpx | rorAbs | rorAbx => exact .inr ⟨_, rfl⟩
  all_goals simp [IsShift, Instr.mnemonic] at h

/-! Mnemonic and operand leave the constructors of the modes meant; in each of them `exec` computes to the shared
operation. -/

theorem exec_of_isShift_of_mem {i : Instr} {m : MemOperand} (s : State) (h : IsShift i.mnemonic)
    (hm : i.operand = .mem m) :
    exec i s = .next (s.shiftMem m (shiftResult i.mnemonic (s.flag .c)) (shiftCarry i.mnemonic)) := by
  obtain hi | hi | hi | hi := (isShift_iff _).1 h
  all_goals cases i <;> cases hi <;> cases hm <;> rfl

theorem exec_of_isShift_of_accumulator {i : Instr} (s : State) (h : IsShift i.mnemonic)
    (ha : i.operand = .accumulator) :
    exec i s = .next (s.shiftAcc (shiftResult i.mnemonic (s.flag .c)) (shiftCarry i.mnemonic)) := by
  obtain hi | hi | hi | hi := (isShift_iff _).1 h
  all_goals
    cases i <;> cases hi <;> cases ha
    rfl

theorem flag_c_shiftMem (s : State) (m : MemOperand) (f : Byte → Byte) (carry : Byte → Bool) :
    (s.shiftMem m f carry).flag .c = carry (s.load m) := by
  obtain ⟨-, -, -, -, -, -, -, -, hflag⟩ := shiftMem_spec s m f carry
  exact hflag .c

theorem flag_c_shiftAcc (s : State) (f : Byte → Byte) (carry : Byte → Bool) :
    (s.shiftAcc f carry).flag .c = carry s.a := by
  obtain ⟨-, -, -, -, -, -, -, hflag⟩ := shiftAcc_spec s f carry
  exact hflag .c

end Sys2Proof.Machine
end

section
/-! Proofs: the statements of 45_incdec_shift.md. -/

namespace Sys2Proof.Machine

/-- Settles O37: in every mode INC and DEC are the shared read-modify-write of the byte at EA. -/
theorem incAndDecModifyMemory : Obligations.IncAndDecModifyMemory := by
  refine ⟨encodedAs_opcodesOf .inc, encodedAs_opcodesOf .dec, fun i s d h => ?_⟩
  obtain ⟨m, f, hm, hexec, hreads, hsetter, hf⟩ := exec_of_isModifyBy s h
  refine ⟨m, s.modify m f, hm, hexec, ?_⟩
  rw [readByte_modify_ea]
  exact ⟨hf _, nzFrom_writeBack s _ _, rfl, modify_frame s m f, operandAccesses_of_readsOperand s hm hreads,
    writeBackAccesses_of_setterResult hm hsetter⟩

/-- Settles O38: each of the four is the shared load of its register, of the register's byte counted up or down. -/
theorem indexRegistersCount : Obligations.IndexRegistersCount := by
  refine ⟨encodedAs_opcodesOf .inx, encodedAs_opcodesOf .iny, encodedAs_opcodesOf .dex, encodedAs_opcodesOf .dey,
    fun i s r d h => ?_⟩
  simp only [List.mem_cons, Prod.mk.injEq, List.not_mem_nil, or_false] at h
  obtain ⟨rfl, rfl, rfl⟩ | ⟨rfl, rfl, rfl⟩ | ⟨rfl, rfl, rfl⟩ | ⟨rfl, rfl, rfl⟩ := h
  · exact ⟨s.loadX (incResult s.x), rfl, toNat_incResult s.x, nzFrom_setNZ _ _, rfl, loadX_frame s _⟩
  · exact ⟨s.loadY (incResult s.y), rfl, toNat_incResult s.y, nzFrom_setNZ _ _, rfl, loadY_frame s _⟩
  · exact ⟨s.loadX (decResult s.x), rfl, toNat_decResult s.x, nzFrom_setNZ _ _, rfl, loadX_frame s _⟩
  · exact ⟨s.loadY (decResult s.y), rfl, toNat_decResult s.y, nzFrom_setNZ _ _, rfl, loadY_frame s _⟩

/-- Settles O39: in a memory mode the four are the shared shift of the byte at EA, in mode ACC the shared shift of A. -/
theorem shiftsAndRotates : Obligations.ShiftsAndRotates := by
  refine ⟨encodedAs_opcodesOf .asl, encodedAs_opcodesOf .lsr, encodedAs_opcodesOf .rol, encodedAs_opcodesOf .ror,
    fun i s h => ⟨fun m hm => ?_, fun hmode => ?_, mode_acc_or_operand_mem_of_isShift h⟩⟩
  · refine ⟨_, exec_of_isShift_of_mem s h hm, ?_⟩
    rw [readByte_shiftMem_ea, flag_c_shiftMem]
    exact ⟨shifts_shiftResult h _ _, nzFrom_writeBack _ _ _, rfl, shiftMem_frame s m _ _,
      operandAccesses_of_readsOperand s hm (readsOperand_of_isShift h),
      writeBackAccesses_of_setterResult hm (setterResult_of_isShift s _ h)⟩
  · have ha := operand_of_mode_acc hmode
    refine ⟨_, exec_of_isShift_of_accumulator s h ha, ?_⟩
    rw [flag_c_shiftAcc]
    exact ⟨shifts_shiftResult h _ _, nzFrom_setNZ _ _, rfl, shiftAcc_frame s _ _, accesses_of_accumulator s ha⟩

end Sys2Proof.Machine
end

section
/-! Proofs: jumps, calls, returns and branches in terms of the shared operations (46_jump_branch.md R151 to R163). -/

namespace Sys2Proof.Machine

/-! ### The indirect target -/

theorem makeWord_and (hi hi' lo lo' : Byte) :
    makeWord hi lo &&& makeWord hi' lo' = makeWord (hi &&& hi') (lo &&& lo') := BitVec.and_append

theorem makeWord_or (hi hi' lo lo' : Byte) :
    makeWord hi lo ||| makeWord hi' lo' = makeWord (hi ||| hi') (lo ||| lo') := BitVec.or_append

theorem and_0xFF00_eq_makeWord (w : Addr) : w &&& 0xFF00 = makeWord (hiByte w) 0#8 := by
  have hmask : (0xFF00 : Addr) = makeWord (BitVec.allOnes 8) 0#8 := by decide
  calc w &&& 0xFF00
    _ = makeWord (hiByte w) (loByte w) &&& makeWord (BitVec.allOnes 8) 0#8 := by rw [makeWord_hiByte_loByte, hmask]
    _ = makeWord (hiByte w) 0#8 := by rw [makeWord_and, BitVec.and_allOnes, BitVec.and_zero]

theorem and_0x00FF_eq_makeWord (w : Addr) : w &&& 0x00FF = makeWord 0#8 (loByte w) := by
  have hmask : (0x00FF : Addr) = makeWord 0#8 (BitVec.allOnes 8) := by decide
  calc w &&& 0x00FF
    _ = makeWord (hiByte w) (loByte w) &&& makeWord 0#8 (BitVec.allOnes 8) := by rw [makeWord_hiByte_loByte, hmask]
    _ = makeWord 0#8 (loByte w) := by rw [makeWord_and, BitVec.and_allOnes, BitVec.and_zero]

/-- The high byte of one word over the low byte of another. -/
theorem and_or_and_eq_makeWord (p q : Addr) : (p &&& 0xFF00) ||| (q &&& 0x00FF) = makeWord (hiByte p) (loByte q) := by
  rw [and_0xFF00_eq_makeWord, and_0x00FF_eq_makeWord, makeWord_or, BitVec.or_zero, BitVec.zero_or]

theorem indirectHighAddr_false (ptr : Addr) : indirectHighAddr false ptr = ptr + 1 := if_neg (by simp)

/-- With the wrap the high byte comes from `ptr + 1` held in the pointer's page: at the last byte of a page that is the
page's first byte, anywhere else it is `ptr + 1` itself. -/
theorem indirectHighAddr_true (ptr : Addr) :
    indirectHighAddr true ptr = (ptr &&& 0xFF00) ||| ((ptr + 1) &&& 0x00FF) := by
  have hlo := loByte_toNat ptr
  have hlo' := loByte_toNat (ptr + 1)
  by_cases hlast : loByte ptr = 0xFF
  · have hzero : loByte (ptr + 1) = 0#8 := by bv_omega
    rw [and_or_and_eq_makeWord, hzero, ← and_0xFF00_eq_makeWord]
    exact if_pos (by simpa using hlast)
  · have hpage : hiByte (ptr + 1) = hiByte ptr := by
      apply BitVec.eq_of_toNat_eq
      rw [hiByte_toNat, hiByte_toNat]
      bv_omega
    rw [and_or_and_eq_makeWord, ← hpage, makeWord_hiByte_loByte]
    exact if_neg (by simpa using hlast)

/-! ### The stacked return address -/

theorem stackAddr_ne_sub_one (sp : Byte) : stackAddr sp ≠ stackAddr (sp - 1) := by
  rw [Ne, stackAddr_inj]
  bv_omega

/-- The low byte, pushed second, does not land on the high one. -/
theorem readByte_call_sp (s : State) (target : Addr) :
    (s.call target).readByte (stackAddr s.sp) = hiByte (s.pc - 1) := by
  obtain ⟨-, -, -, -, -, -, -, hread⟩ := call_spec s target
  rw [hread, if_neg (stackAddr_ne_sub_one s.sp), if_pos rfl]

theorem readByte_call_sp_sub_one (s : State) (target : Addr) :
    (s.call target).readByte (stackAddr (s.sp - 1)) = loByte (s.pc - 1) := by
  obtain ⟨-, -, -, -, -, -, -, hread⟩ := call_spec s target
  rw [hread, if_pos rfl]

theorem addr_sub_one_toNat (w : Addr) : (w - 1).toNat = (w.toNat + 65535) % 65536 := by
  bv_omega

/-- A return leaves SP where the call found it (46_jump_branch.md R164). -/
theorem returnFromCall_call_sp (s : State) (target : Addr) : (s.call target).returnFromCall.sp = s.sp := by
  show s.sp - 1 - 1 + 1 + 1 = s.sp
  rw [BitVec.sub_add_cancel, BitVec.sub_add_cancel]

/-- A return pops the two bytes the call pushed, and the 1 it adds is the 1 the call took off (R164). -/
theorem returnFromCall_call_pc (s : State) (target : Addr) : (s.call target).returnFromCall.pc = s.pc := by
  have hlow : (s.call target).sp + 1 = s.sp - 1 := BitVec.sub_add_cancel (s.sp - 1) 1
  obtain ⟨hpc, -⟩ := returnFromCall_spec (s.call target)
  rw [hpc, hlow, BitVec.sub_add_cancel, readByte_call_sp, readByte_call_sp_sub_one, makeWord_hiByte_loByte,
    BitVec.sub_add_cancel]

/-! ### Branches -/

/-- An instruction that is the shared branch on the bit `taken` branches when the condition `taken` decides holds. -/
theorem branchesWhen_of_exec {i : Instr} {rel : Byte} {taken : State → Bool} {cond : State → Prop}
    (hexec : ∀ s, exec i s = .next (s.branchIf (taken s) rel)) (htaken : ∀ s, taken s = true ↔ cond s) :
    BranchesWhen i rel cond := by
  intro s
  obtain ⟨hpc, -⟩ := branchIf_spec s (taken s) rel
  refine ⟨_, hexec s, fun h => ?_, fun h => ?_, branchIf_frame s _ rel⟩
  · rw [hpc, if_pos ((htaken s).2 h), add_signExtend_toNat]
  · rw [hpc, if_neg (mt (htaken s).1 h)]

theorem branchesWhen_flag_set {i : Instr} {rel : Byte} {f : Flag}
    (hexec : ∀ s, exec i s = .next (s.branchIf (s.flag f) rel)) : BranchesWhen i rel (fun s => s.flag f = true) :=
  branchesWhen_of_exec hexec fun _ => Iff.rfl

theorem branchesWhen_flag_clear {i : Instr} {rel : Byte} {f : Flag}
    (hexec : ∀ s, exec i s = .next (s.branchIf (!s.flag f) rel)) : BranchesWhen i rel (fun s => s.flag f = false) :=
  branchesWhen_of_exec hexec fun _ => Iff.of_eq (Bool.not_eq_true' _)

end Sys2Proof.Machine
end

section
/-! Proofs: the statements of 46_jump_branch.md. -/

namespace Sys2Proof.Machine

/-- Settles O41: without the wrap the target is the shared word read; with it only the high byte's address differs. -/
theorem jmpIndirectReadsItsTarget : Obligations.JmpIndirectReadsItsTarget := by
  refine ⟨encodedAs_opcodesOf .jmp, fun s ptr => ⟨⟨_, rfl, rfl, setPc_frame s _⟩, ?_, ?_⟩⟩
  · rw [State.indirectTarget, makeWord_toNat, indirectHighAddr_false, add_one_eq_ofNat]
  · rw [State.indirectTarget, makeWord_toNat, indirectHighAddr_true]

/-- Settles O42: the two bytes are those of `PC - 1`, and the second push does not reach the first. -/
theorem jsrPushesItsLastAddress : Obligations.JsrPushesItsLastAddress := by
  refine ⟨encodedAs_opcodesOf .jsr, fun s addr => ⟨s.call addr, rfl, rfl, sub_sub s.sp 1 1, ?_, ?_, call_frame s addr⟩⟩
  · rw [readByte_call_sp, hiByte_toNat, addr_sub_one_toNat]
  · rw [readByte_call_sp_sub_one, loByte_toNat, addr_sub_one_toNat, Nat.mod_mod_of_dvd _ (by decide)]

/-- Settles O43: two pops make a word, low byte first, and 1 is added to it modulo 65,536. -/
theorem rtsReturnsPastThePoppedAddress : Obligations.RtsReturnsPastThePoppedAddress := by
  refine ⟨encodedAs_opcodesOf .rts, fun s => ⟨s.returnFromCall, rfl, add_assoc s.sp 1 1, ?_, returnFromCall_frame s⟩⟩
  obtain ⟨hpc, -⟩ := returnFromCall_spec s
  rw [hpc, BitVec.toNat_add, makeWord_toNat, add_assoc s.sp 1 1]
  rfl

/-- Settles O44, by the shared call and the shared return. -/
theorem rtsUndoesJsr : Obligations.RtsUndoesJsr := fun s addr =>
  ⟨s.call addr, (s.call addr).returnFromCall, rfl, rfl, returnFromCall_call_pc s addr, returnFromCall_call_sp s addr⟩

/-- Settles O45: the status is popped first, and the word under it goes to PC as it is. -/
theorem rtiRestoresStatusAndPc : Obligations.RtiRestoresStatusAndPc := by
  refine ⟨encodedAs_opcodesOf .rti, fun s => ?_⟩
  have htwo : s.sp + 1 + 1 = s.sp + 2 := add_assoc s.sp 1 1
  have hthree : s.sp + 2 + 1 = s.sp + 3 := add_assoc s.sp 2 1
  obtain ⟨hsr, hpc, hsp, -⟩ := returnFromTrap_spec s
  rw [htwo, hthree] at hpc hsp
  exact ⟨s.returnFromTrap, rfl, hsp, hsr, by rw [hpc, makeWord_toNat], returnFromTrap_frame s⟩

/-- Settles O46: each is the shared branch on its flag, BCC, BNE, BPL and BVC on the flag's negation. -/
theorem branchesTestTheirFlag : Obligations.BranchesTestTheirFlag := by
  refine ⟨encodedAs_opcodesOf .bcc, encodedAs_opcodesOf .bcs, encodedAs_opcodesOf .bne, encodedAs_opcodesOf .beq,
    encodedAs_opcodesOf .bpl, encodedAs_opcodesOf .bmi, encodedAs_opcodesOf .bvc, encodedAs_opcodesOf .bvs,
    fun rel => ⟨?bcc, ?bcs, ?bne, ?beq, ?bpl, ?bmi, ?bvc, ?bvs⟩⟩
  case bcc | bne | bpl | bvc => exact branchesWhen_flag_clear fun _ => rfl
  case bcs | beq | bmi | bvs => exact branchesWhen_flag_set fun _ => rfl

/-- Settles O40: JMP is the one field update of PC. -/
theorem jmpAbsoluteGoesToItsOperand : Obligations.JmpAbsoluteGoesToItsOperand :=
  ⟨encodedAs_opcodesOf .jmp, fun s addr => ⟨s.setPc addr, rfl, rfl, setPc_frame s addr⟩⟩

end Sys2Proof.Machine
end

section
/-! Proofs: what the trap leaves on the stack (47_flag_brk_nop.md R177). -/

namespace Sys2Proof.Machine

theorem stackAddr_ne_sub_two (sp : Byte) : stackAddr sp ≠ stackAddr (sp - 1 - 1) := by
  rw [Ne, stackAddr_inj]
  bv_omega

/-- The two later pushes do not land on the high byte of the return address. -/
theorem readByte_enterTrap_sp (s : State) : s.enterTrap.readByte (stackAddr s.sp) = hiByte (s.pc + 1) := by
  rw [readByte_enterTrap, if_neg (stackAddr_ne_sub_two s.sp), if_neg (stackAddr_ne_sub_one s.sp), if_pos rfl]

/-- The status, pushed last, does not land on the low byte of the return address. -/
theorem readByte_enterTrap_sp_sub_one (s : State) :
    s.enterTrap.readByte (stackAddr (s.sp - 1)) = loByte (s.pc + 1) := by
  rw [readByte_enterTrap, if_neg (stackAddr_ne_sub_one (s.sp - 1)), if_pos rfl]

theorem readByte_enterTrap_sp_sub_two (s : State) :
    s.enterTrap.readByte (stackAddr (s.sp - 1 - 1)) = pushedStatus s.sr := by
  rw [readByte_enterTrap, if_pos rfl]

theorem addr_add_one_toNat (w : Addr) : (w + 1).toNat = (w.toNat + 1) % 65536 := BitVec.toNat_add w 1

end Sys2Proof.Machine
end

section
/-! Proofs: the statements of 47_flag_brk_nop.md. -/

namespace Sys2Proof.Machine

/-- Settles O47: each of the seven is the one flag update, with the flag and the value of its row. -/
theorem flagInstructionsWriteOneFlag : Obligations.FlagInstructionsWriteOneFlag := by
  refine ⟨encodedAs_opcodesOf .clc, encodedAs_opcodesOf .sec, encodedAs_opcodesOf .cld, encodedAs_opcodesOf .sed,
    encodedAs_opcodesOf .cli, encodedAs_opcodesOf .sei, encodedAs_opcodesOf .clv, fun i s f value h => ?_⟩
  have hexec : exec i s = .next (s.setFlag f value) := by
    simp only [List.mem_cons, Prod.mk.injEq, List.not_mem_nil, or_false] at h
    obtain ⟨rfl, rfl, rfl⟩ | ⟨rfl, rfl, rfl⟩ | ⟨rfl, rfl, rfl⟩ | ⟨rfl, rfl, rfl⟩ | ⟨rfl, rfl, rfl⟩ | ⟨rfl, rfl, rfl⟩ |
      ⟨rfl, rfl, rfl⟩ := h <;> rfl
  exact ⟨s.setFlag f value, hexec, (flag_setFlag s f f value).trans (if_pos rfl), rfl, setFlag_frame s f value⟩

/-- Settles O48: the three pushes go to three different bytes, and none of them reaches the vector. -/
theorem brkTakesTheTrap : Obligations.BrkTakesTheTrap := by
  refine ⟨encodedAs_opcodesOf .brk, fun s => ?_⟩
  have htwo : s.sp - 1 - 1 = s.sp - 2 := sub_sub s.sp 1 1
  have hthree : s.sp - 2 - 1 = s.sp - 3 := sub_sub s.sp 2 1
  have hstatus := readByte_enterTrap_sp_sub_two s
  have hframe := enterTrap_frame s
  obtain ⟨hpc, hsp, -, -, -, -, hflag⟩ := enterTrap_spec s
  rw [htwo] at hstatus hframe hsp
  refine ⟨s.enterTrap, rfl, hsp.trans hthree, hflag .i, ?_, ?_, hstatus, ?_, hframe⟩
  · rw [readByte_enterTrap_sp, hiByte_toNat, addr_add_one_toNat]
  · rw [readByte_enterTrap_sp_sub_one, loByte_toNat, addr_add_one_toNat, Nat.mod_mod_of_dvd _ (by decide)]
  · rw [hpc, makeWord_toNat]
    rfl

/-- Settles O50: the meaning of NOP is the state it is given. -/
theorem nopChangesNothing : Obligations.NopChangesNothing := ⟨encodedAs_opcodesOf .nop, fun _ => rfl⟩

end Sys2Proof.Machine
end

section
/-! Proofs: the fault, the return from the trap, and a machine that stands at BRK (60_exceptions.md R180, R181, R188;
70_reset_and_hazards.md R202, R205). -/

namespace Sys2Proof.Machine

/-! ### A session's step -/

theorem Session.step_eq_faulted_iff (h h' : Session) (f : Fault) :
    h.step = (.faulted f, h') ↔ Machine.step h.machine = .fault f ∧ h' = h := by
  unfold Session.step
  split <;> simp [*, eq_comm]

theorem Session.step_eq_stepped_iff (h h' : Session) (ids : List Nat) :
    h.step = (.stepped ids, h') ↔
      ids = h.subscribers ∧ ∃ t, Machine.step h.machine = .next t ∧ h' = { h with machine := t } := by
  unfold Session.step
  split <;> simp [*, eq_comm]

/-! ### The return from the trap -/

theorem returnFromTrap_enterTrap_sp (s : State) : s.enterTrap.returnFromTrap.sp = s.sp := by
  show s.sp - 1 - 1 - 1 + 1 + 1 + 1 = s.sp
  rw [BitVec.sub_add_cancel, BitVec.sub_add_cancel, BitVec.sub_add_cancel]

/-- The three pops read the three bytes the trap pushed (60_exceptions.md R188). -/
theorem returnFromTrap_enterTrap (s : State) :
    s.enterTrap.returnFromTrap.sr = loadedStatus (pushedStatus s.sr) ∧ s.enterTrap.returnFromTrap.pc = s.pc + 1 := by
  obtain ⟨hsr, hpc, -⟩ := returnFromTrap_spec s.enterTrap
  have hsp : s.enterTrap.sp + 1 = s.sp - 1 - 1 := BitVec.sub_add_cancel (s.sp - 1 - 1) 1
  rw [hsp, readByte_enterTrap_sp_sub_two] at hsr
  rw [hsp, BitVec.sub_add_cancel, BitVec.sub_add_cancel, readByte_enterTrap_sp, readByte_enterTrap_sp_sub_one,
    makeWord_hiByte_loByte] at hpc
  exact ⟨hsr, hpc⟩

/-! ### No program -/

theorem ne_stackAddr {addr : Addr} (h : addr.toNat / 256 ≠ 1) (p : Byte) : addr ≠ stackAddr p := by
  rintro rfl
  rw [stackAddr_toNat] at h
  omega

/-- Pushing stays in the stack page and the vector holds 0x0000, so the trap leads back to 0x0000. -/
theorem noProgram_enterTrap {s : State} (h : ∀ addr : Addr, addr.toNat / 256 ≠ 1 → s.readByte addr = 0) :
    s.enterTrap.NoProgram := by
  obtain ⟨hpc, -⟩ := enterTrap_spec s
  refine ⟨?_, fun addr haddr => ?_⟩
  · rw [hpc, h (brkVector + 1) (by decide), h brkVector (by decide)]
    rfl
  · rw [(enterTrap_frame s).mem_same addr (by simp [ne_stackAddr haddr]), h addr haddr]

theorem fetch_of_noProgram {s : State} (h : s.NoProgram) : s.fetch = .ok .brk := by
  obtain ⟨hpc, hmem⟩ := h
  have hop : s.readByte s.pc = 0 := hmem s.pc (by rw [hpc]; decide)
  refine fetch_of_encode_prefix ⟨[s.readByte (s.pc + 1), s.readByte (s.pc + 2)], ?_⟩
  rw [State.fetchWindow, hop]
  rfl

/-- What `n` steps of a machine with no program make of `s` (70_reset_and_hazards.md R202). -/
structure BrkSteps (n : Nat) (s t : State) : Prop where
  noProgram : t.NoProgram
  sp_eq : (t.sp.toNat + 3 * n) % 256 = s.sp.toNat
  i_iff : t.flag .i = true ↔ s.flag .i = true ∨ 0 < n
  a_eq : t.a = s.a
  x_eq : t.x = s.x
  y_eq : t.y = s.y
  ic_eq : t.ic = s.ic + n

theorem BrkSteps.zero {s : State} (h : s.NoProgram) : BrkSteps 0 s s :=
  ⟨h, Nat.mod_eq_of_lt s.sp.isLt, by simp, rfl, rfl, rfl, rfl⟩

theorem BrkSteps.trans {m n : Nat} {s t u : State} (hst : BrkSteps m s t) (htu : BrkSteps n t u) :
    BrkSteps (m + n) s u where
  noProgram := htu.noProgram
  sp_eq := by
    have hs := hst.sp_eq
    have ht := htu.sp_eq
    omega
  i_iff := by rw [htu.i_iff, hst.i_iff, or_assoc, Nat.add_pos_iff_pos_or_pos]
  a_eq := htu.a_eq.trans hst.a_eq
  x_eq := htu.x_eq.trans hst.x_eq
  y_eq := htu.y_eq.trans hst.y_eq
  ic_eq := by rw [htu.ic_eq, hst.ic_eq, Nat.add_assoc]

/-- One step takes the trap from the state past the opcode byte. -/
theorem exists_step_of_noProgram {s : State} (h : s.NoProgram) : ∃ t, step s = .next t ∧ BrkSteps 1 s t := by
  obtain ⟨-, hsp, ha, hx, hy, hic, hflag⟩ := enterTrap_spec (s.advancePc Instr.brk.length)
  refine ⟨(s.advancePc Instr.brk.length).enterTrap.countInstruction,
    (step_next_iff s _).2 ⟨.brk, _, fetch_of_noProgram h, rfl, rfl⟩,
    noProgram_enterTrap h.2, ?_, ?_, ha, hx, hy, congrArg (· + 1) hic⟩
  · rw [countInstruction_sp, hsp, advancePc_sp]
    bv_omega
  · exact iff_of_true (hflag .i) (.inr Nat.one_pos)

theorem coreRun_succ_of_step {M : Host.Core} {s t : M.State} (h : M.step s = .next t) (n : Nat) :
    M.run (n + 1) s = M.run n t := by
  simp only [Host.Core.run, h]

theorem exists_run_of_noProgram (n : Nat) {s : State} (h : s.NoProgram) :
    ∃ t : State, Sys2Proof.core.run n s = .next t ∧ BrkSteps n s t := by
  induction n generalizing s with
  | zero => exact ⟨s, rfl, .zero h⟩
  | succ n ih =>
    obtain ⟨t, hstep, hst⟩ := exists_step_of_noProgram h
    obtain ⟨u, hrun, htu⟩ := ih hst.noProgram
    exact ⟨u, (coreRun_succ_of_step (M := Sys2Proof.core) hstep n).trans hrun, Nat.add_comm n 1 ▸ hst.trans htu⟩

theorem noProgram_reset : State.reset.NoProgram := ⟨rfl, fun _ _ => rfl⟩

end Sys2Proof.Machine
end

section
/-! Proofs: the statements of 60_exceptions.md, and of 70_reset_and_hazards.md on a machine with no program. -/

namespace Sys2Proof.Machine

/-- Settles O7: a step stops exactly when fetching fails, and fetching fails at the bytes of R56 only. -/
theorem theOnlyFaultIsUnknownOpcode : Obligations.TheOnlyFaultIsUnknownOpcode := by
  intro s f
  rw [mem_unassignedOpcodes_iff, ← fetch_error_iff]
  cases hfetch : s.fetch with
  | error e => simp [step_of_fetch_error s e hfetch, eq_comm]
  | ok i =>
    obtain ⟨t, ht⟩ := step_of_fetch_ok s i hfetch
    simp [ht]

/-- Settles O49: RTI pops what BRK pushed; bit 4, set in the pushed copy and cleared on loading, was clear before. -/
theorem rtiUndoesBrk : Obligations.RtiUndoesBrk := by
  intro s hb
  obtain ⟨hsr, hpc⟩ := returnFromTrap_enterTrap s
  exact ⟨s.enterTrap, s.enterTrap.returnFromTrap, rfl, rfl, hsr.trans (loadedStatus_pushedStatus s.sr hb),
    returnFromTrap_enterTrap_sp s, hpc⟩

/-- Settles O8, by the two inversions of a session's step. -/
theorem faultKeepsTheStateAndRepeats : Obligations.FaultKeepsTheStateAndRepeats := by
  refine fun h => ⟨fun f h' hstep => ?_, fun ids h' hstep => ?_⟩
  · obtain ⟨-, rfl⟩ := (Session.step_eq_faulted_iff h h' f).1 hstep
    exact ⟨rfl, hstep⟩
  · obtain ⟨rfl, t, ht, rfl⟩ := (Session.step_eq_stepped_iff h h' ids).1 hstep
    exact ⟨rfl, rfl, ht⟩

/-- Settles O15: one step by `exists_step_of_noProgram`, all of them by composing `BrkSteps` along the run. -/
theorem machineWithNoProgramRepeatsBrk : Obligations.MachineWithNoProgramRepeatsBrk := by
  refine ⟨fun s hs => ⟨fetch_of_noProgram hs, ?_⟩, noProgram_reset, fun n => ?_⟩
  · obtain ⟨t, hstep, hno, hsp, hi, ha, hx, hy, hic⟩ := exists_step_of_noProgram hs
    exact ⟨t, hstep, hno, by bv_omega, hi.2 (.inr Nat.one_pos), ha, hx, hy, hic⟩
  · obtain ⟨t, hrun, hno, hsp, hi, ha, hx, hy, hic⟩ := exists_run_of_noProgram n noProgram_reset
    exact ⟨t, hrun, fetch_of_noProgram hno, hno.1, hic.trans (Nat.zero_add n), hsp,
      hi.trans (or_iff_right (by decide)), ha, hx, hy⟩

end Sys2Proof.Machine
end

section
/-! Proofs: what the host's stores, the NSF loader and its driver do (70_reset_and_hazards.md R208, R209, R216 to R219). -/

namespace Sys2Proof.Machine

/-! ### Storing bytes -/

theorem add_one_add_ofNat (addr : Addr) (k : Nat) : addr + 1 + BitVec.ofNat 16 k = addr + BitVec.ofNat 16 (k + 1) := by
  rw [Nat.add_comm k 1, BitVec.ofNat_add, ← BitVec.add_assoc]
  rfl

/-- A byte that no later one overwrites is read back. -/
theorem readByte_writeBytes_inside (bytes : List Byte) (s : State) (dest : Addr) (k : Nat) (hk : k < bytes.length)
    (hlast : ∀ j, k < j → j < bytes.length → dest + BitVec.ofNat 16 j ≠ dest + BitVec.ofNat 16 k) :
    (s.writeBytes dest bytes).readByte (dest + BitVec.ofNat 16 k) = bytes[k] := by
  induction bytes generalizing s dest k with
  | nil => cases hk
  | cons b bs ih =>
    rw [State.writeBytes]
    cases k with
    | zero =>
      have hout : ∀ j, j < bs.length → dest + 1 + BitVec.ofNat 16 j ≠ dest + BitVec.ofNat 16 0 := fun j hj => by
        rw [add_one_add_ofNat]
        exact hlast (j + 1) j.succ_pos (Nat.succ_lt_succ hj)
      rw [readByte_writeBytes_outside bs _ _ _ hout, BitVec.add_zero, readByte_writeByte_self, List.getElem_cons_zero]
    | succ k =>
      rw [← add_one_add_ofNat, List.getElem_cons_succ]
      refine ih _ (dest + 1) k (Nat.lt_of_succ_lt_succ hk) fun j hkj hj => ?_
      rw [add_one_add_ofNat, add_one_add_ofNat]
      exact hlast (j + 1) (Nat.succ_lt_succ hkj) (Nat.succ_lt_succ hj)

/-- Where the host's byte `k` goes: its address modulo 65,536 (70_reset_and_hazards.md R208). -/
theorem ofNat_add_ofNat_toNat (dest k : Nat) : (BitVec.ofNat 16 dest + BitVec.ofNat 16 k).toNat = (dest + k) % 65536 := by
  rw [← BitVec.ofNat_add, BitVec.toNat_ofNat]

/-! ### The NSF loader and its driver -/

theorem nsfHeader_of_bad_magic {file : List Byte} (h : file.take 4 ≠ nsfMagic) : nsfHeader file = .error .badMagic :=
  if_pos (bne_iff_ne.2 h)

theorem nsfLoad_of_header_error (s : State) {file : List Byte} {e : NsfError} (h : nsfHeader file = .error e) :
    s.nsfLoad file = .error e := by
  rw [State.nsfLoad, h]

theorem nsfLoad_of_header (s : State) {file : List Byte} {h : NsfHeader} (hh : nsfHeader file = .ok h) :
    s.nsfLoad file = .ok { machine := s.nsfClear.nsfPlace h (file.drop 0x80), header := h, playAddr := h.playAddr
                           awaitingFirstRts := true } := by
  rw [State.nsfLoad, hh]

theorem NsfDriver.step_of_first_rts {d : NsfDriver} {t : State} (hstep : Machine.step d.machine = .next t)
    (harmed : d.awaitingFirstRts = true) (hrts : d.machine.fetch = .ok .rts) :
    d.step = .next { d with machine := t.setPc d.playAddr, awaitingFirstRts := false } := by
  simp only [NsfDriver.step, hstep, harmed, hrts]
  rfl

theorem NsfDriver.step_of_not_first_rts {d : NsfDriver} {t : State} (hstep : Machine.step d.machine = .next t)
    (h : ¬ (d.awaitingFirstRts = true ∧ d.machine.fetch = .ok .rts)) : d.step = .next { d with machine := t } := by
  simp only [NsfDriver.step, hstep]
  split
  case h_1 harmed hrts => exact absurd ⟨harmed, hrts⟩ h
  case h_2 => rfl

end Sys2Proof.Machine
end

section
/-! Proofs: the statements of 70_reset_and_hazards.md on the host. -/

namespace Sys2Proof.Machine

/-- Settles O56, by what storing bytes does inside and outside the range, its addresses taken modulo 65,536. -/
theorem hostWriteBytesStoresInOrder : Obligations.HostWriteBytesStoresInOrder := by
  intro s bytes dest
  obtain ⟨hregs, hic⟩ := hostWriteBytes_registers s bytes dest
  refine ⟨fun k hk hlast => ?_, fun addr haddr => ?_, hregs, hic⟩
  · rw [State.hostRead8, BitVec.ofNat_add]
    refine readByte_writeBytes_inside bytes s _ k hk fun j hkj hj heq => hlast j hkj hj ?_
    rw [← ofNat_add_ofNat_toNat, heq, ofNat_add_ofNat_toNat]
  · refine readByte_writeBytes_outside bytes s _ addr fun k hk heq => haddr k hk ?_
    rw [← ofNat_add_ofNat_toNat, heq]

/-- Settles O57: a fill is a store of equal bytes, and up to 0x10000 none of its addresses wraps. -/
theorem hostFillIsHalfOpen : Obligations.HostFillIsHalfOpen := by
  intro s start stop v hstop
  obtain ⟨hregs, hic⟩ := hostFill_registers s start stop v
  obtain ⟨hin, hout, -⟩ := hostWriteBytesStoresInOrder s (List.replicate (stop - start) v) start
  simp only [List.length_replicate, List.getElem_replicate] at hin hout
  refine ⟨fun addr => ?_, fun hempty => ?_, hregs, hic⟩
  · split
    case isTrue hrange =>
      have hread := hin (addr.toNat - start) (by omega) (by omega)
      rwa [Nat.add_sub_cancel' hrange.1, State.hostRead8, BitVec.ofNat_toNat, BitVec.setWidth_eq] at hread
    case isFalse hrange => exact hout addr (by omega)
  · rw [State.hostFill, Nat.sub_eq_zero_of_le hempty]
    rfl

/-- Settles O59: the first RTS and every other instruction are the two cases of a driven step. -/
theorem firstRtsInstallsPlayAddress : Obligations.FirstRtsInstallsPlayAddress := by
  intro d t hstep
  by_cases hfirst : d.awaitingFirstRts = true ∧ d.machine.fetch = .ok .rts
  · obtain ⟨harmed, hrts⟩ := hfirst
    refine ⟨_, NsfDriver.step_of_first_rts hstep harmed hrts, fun _ _ => ⟨rfl, rfl⟩, ?_⟩
    rintro (hoff | hother)
    · exact absurd harmed (by simp [hoff])
    · exact absurd hrts hother
  · exact ⟨_, NsfDriver.step_of_not_first_rts hstep hfirst, fun harmed hrts => absurd ⟨harmed, hrts⟩ hfirst,
      fun _ => ⟨rfl, rfl⟩⟩

/-- Settles O60: the header is validated first; clearing touches no register, and placing writes X, A and PC. -/
theorem nsfLoadSetsUpTheFirstCall : Obligations.NsfLoadSetsUpTheFirstCall := by
  refine fun s file => ⟨fun hmagic => nsfLoad_of_header_error s (nsfHeader_of_bad_magic hmagic), fun h hh => ?_⟩
  obtain ⟨hpc, ha, hx, hy, hsp, hsr, hic⟩ := nsfPlace_spec s.nsfClear h (file.drop 0x80)
  obtain ⟨hregs, hic'⟩ := nsfClear_registers s
  obtain ⟨-, -, -, hy', hsr', hsp'⟩ := (registers_eq_iff s s.nsfClear).1 hregs
  refine ⟨_, nsfLoad_of_header s hh, hpc, ?_, hx, hy.trans hy', hsp.trans hsp', hsr.trans hsr', hic.trans hic', rfl, rfl⟩
  rw [ha, byte_sub_one_toNat]
  omega

/-- Settles O58: the host's write of PC is the one field update. -/
theorem syntheticJmpWritesPcOnly : Obligations.SyntheticJmpWritesPcOnly := fun s v => ⟨rfl, setPc_frame s v, rfl⟩

end Sys2Proof.Machine
end
